-- ==== Sys2Proof/Word.lean ====
section
/-! DEFINITION. The widths of the machine: a register or address is 32 bits, a half-word of an instruction 16, a memory
cell 8 (00_scope.md R7, R9; 20_memory.md R80). -/

namespace Sys2Proof

/-- A register value or a byte address: 32 bits, arithmetic modulo 2^32 (00_scope.md R9). -/
abbrev Word := BitVec 32

/-- One half-word of an instruction (30_encoding.md R122). -/
abbrev Half := BitVec 16

/-- One cell of memory: addresses count bytes (20_memory.md R80). -/
abbrev Byte := BitVec 8

end Sys2Proof
end

