-- ==== Sys2Proof/Syntax.lean ====
section
/-! DEFINITION. The statements of the machine: one constructor per row of spec/opcode_table.json, in the table's order
(00_scope.md R6; 30_encoding.md R148). -/

namespace Sys2Proof

/-- A loop unit: 0 (LC0, LT0, LB0) or 1 (LC1, LT1, LB1) (43_loops.md R250). -/
inductive LoopIdx where
  | l0
  | l1
  deriving DecidableEq, Repr

/-- A data register R0..R7 (10_state.md R22). -/
abbrev DReg := Fin 8

/-- A pointer register: P0..P5, SP, FP (10_state.md R23). SP names the stack pointer of the current mode (R24). -/
inductive PReg where
  | p (n : Fin 6)
  | sp
  | fp
  deriving DecidableEq, Repr

/-- A register of the R or the P file, the operands of a conditional move (42_condition_code.md R238). -/
inductive GReg where
  | d (r : DReg)
  | p (r : PReg)
  deriving DecidableEq, Repr

/-- Every register a push, a pop or a move can name (30_encoding.md R132; 40_stack_and_moves.md R160, R163, R170). -/
inductive Reg where
  | g (r : GReg)
  | astat
  | rets
  | lc (k : LoopIdx)
  | lt (k : LoopIdx)
  | lb (k : LoopIdx)
  | cycles
  | cycles2
  | usp
  | seqstat
  | syscfg
  | reti
  | retx
  | retn
  | rete
  deriving DecidableEq, Repr

/-- One constructor per row of spec/opcode_table.json. Offsets are the fields of the encoding: the byte offset of the
statement divided by 2 (30_encoding.md R135). -/
inductive Instr where
  /-- `RTS;` (R205) -/
  | rts
  /-- `RTI;` (R296) -/
  | rti
  /-- `RTX;` (R297) -/
  | rtx
  /-- `RTN;` (R298) -/
  | rtn
  /-- `RTE;` (R299) -/
  | rte
  /-- `IDLE;` (R310) -/
  | idle
  /-- `CLI Rd;` (R290) -/
  | cli (d : DReg)
  /-- `STI Rd;` (R292) -/
  | sti (d : DReg)
  /-- `JUMP (Preg);` (R194) -/
  | jumpP (p : PReg)
  /-- `CALL (Preg);` (R201) -/
  | callP (p : PReg)
  /-- `CALL (PC + Preg);` (R202) -/
  | callPcP (p : PReg)
  /-- `JUMP (PC + Preg);` (R195) -/
  | jumpPcP (p : PReg)
  /-- `RAISE n;` (R280) -/
  | raise (n : BitVec 4)
  /-- `EXCPT m;` (R286) -/
  | excpt (m : BitVec 4)
  /-- `IF CC JUMP label;`, with `bp` the option (bp) (R233) -/
  | ifCcJump (bp : Bool) (off : BitVec 10)
  /-- `IF !CC JUMP label;`, with `bp` the option (bp) (R234) -/
  | ifNotCcJump (bp : Bool) (off : BitVec 10)
  /-- `JUMP.S label;` (R191) -/
  | jumpS (off : BitVec 12)
  /-- `JUMP.L label;` (R192) -/
  | jumpL (off : BitVec 24)
  /-- `CALL label;` (R200) -/
  | call (off : BitVec 24)
  /-- `LSETUP (lp_start, lp_end) LCk = Preg;` (R264) -/
  | lsetup (k : LoopIdx) (soff : BitVec 4) (p : PReg) (eoff : BitVec 10)
  /-- `[--SP] = reg;` (R160) -/
  | push (r : Reg)
  /-- `reg = [SP++];` (R163) -/
  | pop (r : Reg)
  /-- `[--SP] = (R7:x, P5:y);`, either list optional (R166) -/
  | pushMultiple (x : Option DReg) (y : Option (Fin 6))
  /-- `(R7:x, P5:y) = [SP++];`, either list optional (R167) -/
  | popMultiple (x : Option DReg) (y : Option (Fin 6))
  /-- `dst = src;` (R170) -/
  | regMove (dst src : Reg)
  /-- `IF CC dst = src;` (R238) -/
  | ifCcMove (dst src : GReg)
  /-- `IF !CC dst = src;` (R239) -/
  | ifNotCcMove (dst src : GReg)
  /-- `CC = Rx == Ry;` (R222) -/
  | ccEqD (x y : DReg)
  /-- `CC = Rx == imm3;` (R222) -/
  | ccEqDImm (x : DReg) (imm : BitVec 3)
  /-- `CC = Rx < Ry;` (R223) -/
  | ccLtD (x y : DReg)
  /-- `CC = Rx < imm3;` (R223) -/
  | ccLtDImm (x : DReg) (imm : BitVec 3)
  /-- `CC = Rx <= Ry;` (R224) -/
  | ccLeD (x y : DReg)
  /-- `CC = Rx <= imm3;` (R224) -/
  | ccLeDImm (x : DReg) (imm : BitVec 3)
  /-- `CC = Rx < Ry (IU);` (R225) -/
  | ccLtuD (x y : DReg)
  /-- `CC = Rx < uimm3 (IU);` (R225) -/
  | ccLtuDImm (x : DReg) (imm : BitVec 3)
  /-- `CC = Rx <= Ry (IU);` (R226) -/
  | ccLeuD (x y : DReg)
  /-- `CC = Rx <= uimm3 (IU);` (R226) -/
  | ccLeuDImm (x : DReg) (imm : BitVec 3)
  /-- `CC = Px == Py;` (R227) -/
  | ccEqP (x y : PReg)
  /-- `CC = Px == imm3;` (R227) -/
  | ccEqPImm (x : PReg) (imm : BitVec 3)
  /-- `CC = Px < Py;` (R228) -/
  | ccLtP (x y : PReg)
  /-- `CC = Px < imm3;` (R228) -/
  | ccLtPImm (x : PReg) (imm : BitVec 3)
  /-- `CC = Px <= Py;` (R229) -/
  | ccLeP (x y : PReg)
  /-- `CC = Px <= imm3;` (R229) -/
  | ccLePImm (x : PReg) (imm : BitVec 3)
  /-- `CC = Px < Py (IU);` (R230) -/
  | ccLtuP (x y : PReg)
  /-- `CC = Px < uimm3 (IU);` (R230) -/
  | ccLtuPImm (x : PReg) (imm : BitVec 3)
  /-- `CC = Px <= Py (IU);` (R231) -/
  | ccLeuP (x y : PReg)
  /-- `CC = Px <= uimm3 (IU);` (R231) -/
  | ccLeuPImm (x : PReg) (imm : BitVec 3)
  deriving DecidableEq, Repr

end Sys2Proof
end

