-- ==== Sys2Proof/Machine/Forms.lean ====
section
/-! DEFINITION. Which operands a statement admits, and which registers only the Supervisor may name: facts about the
syntax alone, used by the well-formedness check and by the meanings. -/

namespace Sys2Proof.Machine

/-- The registers only Supervisor and Emulation mode may name as an operand (10_state.md R29, R31, R32; 40_stack_and_moves.md
R160, R163, R170; 60_exceptions.md R422). -/
def supervisorReg : Reg → Bool
  | .usp | .seqstat | .syscfg | .reti | .retx | .retn | .rete => true
  | .g _ | .astat | .rets | .lc _ | .lt _ | .lb _ | .cycles | .cycles2 => false

/-- The destinations a pop admits: every register but SP and SEQSTAT (10_state.md R21, R34; 40_stack_and_moves.md R163; 93 U14).
CYCLES and CYCLES2 a platform may refuse (`State.admitsWrite`; log 13). -/
def popAdmitted : Reg → Bool
  | .g (.p .sp) | .seqstat => false
  | .g (.d _) | .g (.p (.p _)) | .g (.p .fp) | .astat | .rets | .lc _ | .lt _ | .lb _ | .cycles | .cycles2 | .usp | .syscfg
  | .reti | .retx | .retn | .rete => true

/-- A register of the R or the P file. -/
def isGeneral : Reg → Bool
  | .g _ => true
  | .astat | .rets | .lc _ | .lt _ | .lb _ | .cycles | .cycles2 | .usp | .seqstat | .syscfg | .reti | .retx | .retn
  | .rete => false

/-- The pairs a move admits: at least one side in the R or P file, and a destination that can be written, which SEQSTAT cannot
(10_state.md R21, R31, R34; 40_stack_and_moves.md R170; 30_encoding.md R130; 93 U14). CYCLES and CYCLES2 a platform may refuse
(`State.admitsWrite`; log 13). -/
def moveAdmitted (dst src : Reg) : Bool :=
  (isGeneral dst || isGeneral src) && decide (dst ≠ .seqstat)

/-- The offsets LSETUP admits, as fields: a start of at least 4 bytes and an end not before the start (43_loops.md R266). -/
def lsetupAdmitted (soff : BitVec 4) (eoff : BitVec 10) : Bool :=
  decide (2 ≤ soff.toNat) && decide (soff.toNat ≤ eoff.toNat)

/-- The registers of a multiple push in the order it stores them: Rx up to R7, then Py up to P5 (40_stack_and_moves.md R166). -/
def multipleRegs (x : Option DReg) (y : Option (Fin 6)) : List GReg :=
  (match x with
    | some i => (([0, 1, 2, 3, 4, 5, 6, 7] : List DReg).filter (fun r => decide (i ≤ r))).map GReg.d
    | none => []) ++
  (match y with
    | some j => (([0, 1, 2, 3, 4, 5] : List (Fin 6)).filter (fun r => decide (j ≤ r))).map (fun r => GReg.p (.p r))
    | none => [])

end Sys2Proof.Machine
end

