-- ==== Sys2Proof/Config.lean ====
section
/-! DEFINITION. What the spec leaves to the implementation or leaves open: the values of its named parameters, which a
platform carries, and the free values, constants without a body of which nothing can be proved, so that a claim holds whatever
they are. -/

namespace Sys2Proof

/-- The values of the parameter LOOP_END_TRANSFER (00_scope.md R8; 43_loops.md R259): what a taken transfer at an active loop
end does. The default is `refuse` (log 9). -/
inductive LoopEndTransfer where
  /-- the model has no meaning for it -/
  | refuse
  /-- the transfer is taken and LCk keeps its value -/
  | transferWins
  /-- the transfer is taken and LCk is decremented -/
  | transferWinsDecrement
  deriving DecidableEq, Repr

/-- The values of the parameter SOFT_RESET (00_scope.md R8; 44_event_instructions.md R282): what RAISE 1 does beyond latching
ILAT[1]. The default is `refuse` (log 10). -/
inductive SoftReset where
  /-- the model has no meaning for it -/
  | refuse
  /-- the next step leaves the reset state -/
  | coreReset
  deriving DecidableEq, Repr

/-- What a move, a pop or LSETUP does that writes a register of a loop unit at that unit's own active loop end, a choice of the
model's own: R262 refuses it, since the source does not say what the unit then does (43_loops.md R262; 93 U17; log 17). -/
inductive LoopEndWrite where
  /-- the model has no meaning for it, as R262 says -/
  | refuse
  /-- the instruction runs, and what the unit sees of its registers at it is a free value -/
  | freeView
  deriving DecidableEq, Repr

/-- When the unit sees a register that a move, a pop or LSETUP writes away from the unit's active loop end, on which rules of the
spec differ for an instruction that writes its own address to LB: a parameter of the model's own between the readings (log 38). -/
inductive LoopWriteSeen where
  /-- from the next instruction on (43_loops.md R262; 40_stack_and_moves.md R174) -/
  | fromNext
  /-- at the end of the writing instruction, whose `NextPC` has the values after its writes (43_loops.md R256) -/
  | atOnce
  deriving DecidableEq, Repr

/-- What a pop or a move into CYCLES or CYCLES2 does, on which rules of the spec differ: a parameter of the model's own between
the readings; the default is `refuse`, which the rules of the two statements say (log 13). -/
inductive CounterWrite where
  /-- the form is refused (40_stack_and_moves.md R163, R170) -/
  | refuse
  /-- the form runs without an observable effect (10_state.md R21, R34) -/
  | noEffect
  deriving DecidableEq, Repr

/-- The n-th free word: a value the spec calls a draw, or does not state (logs 11, 12 and 17). The step numbers its draws with
the counter `draws` of State. Safe: a free value. -/
opaque Config.freeWord : Nat → Word

/-- What the byte of data memory at an address holds that nothing has written since the reset counted by the first
argument (70_reset_and_hazards.md R440: MEM unspecified; 93 U25: any value, fixed for the run; log 7). Safe: a free
value. -/
opaque Config.initialByte : Nat → Nat → Byte

end Sys2Proof
end

