-- ==== Sys2Proof/Machine/State.lean ====
section
/-! DEFINITION. The state of the machine as plain data (10_state.md R20), the reasons a step can stop, the reset state, and
one plain update per field. -/

namespace Sys2Proof.Machine

/-- Bytes at addresses. The canonical form is that of `Memory.wf`: addresses strictly rising, each below 2^32. An address
that is not listed has no value, so no entry can equal it. -/
abbrev Memory := List Host.Cell

/-- One hardware loop unit (10_state.md R30): the iterations remaining, the address of the first and of the last instruction
of the body. -/
structure LoopUnit where
  lc : Word
  lt : Word
  lb : Word
  deriving DecidableEq, Repr

/-- ASTAT: the flag CC, bit 5, and the bits above and below it, which the spec leaves uninterpreted (10_state.md R35). -/
structure Astat where
  hi : BitVec 26
  cc : Bool
  lo : BitVec 5
  deriving DecidableEq, Repr

/-- The system interrupt controller (10_state.md R43 to R47): its registers, and for each input IVG7..IVG15 (bit 0 is IVG7)
whether a pulse has been sent and not yet acknowledged (R60; 60_exceptions.md R376). -/
structure Sic where
  isr : Word
  iwr : Word
  imask : Word
  iar0 : Word
  iar1 : Word
  iar2 : Word
  sent : BitVec 9
  deriving DecidableEq, Repr

/-- The causes the hardware-error input can carry (60_exceptions.md R411, Table 4-13 without RAISE 5). -/
inductive HwError where
  | dmaBusComparator
  | systemMmr
  | externalMemory
  | performanceMonitor
  deriving DecidableEq, Repr

/-- The inputs of one step (10_state.md R62), and how the two draws the spec gives the environment fall at it. -/
structure EnvInput where
  /-- the level of each peripheral request line, bit n for the source with ID n -/
  periph : BitVec 24
  /-- an edge on the NMI input -/
  nmi : Bool
  /-- RESET is asserted -/
  reset : Bool
  /-- the hardware-error input is active, with its cause -/
  hwError : Option HwError
  /-- the core timer reaches zero -/
  timerZero : Bool
  /-- an emulator request (60_exceptions.md R430) -/
  emuReq : Bool
  /-- the TRST pin, which clears ILAT[0] (10_state.md R41) -/
  trst : Bool
  /-- whether the SIC pulses again on an input whose IPEND bit is still set, bit 0 for IVG7 (60_exceptions.md R376; 93 U23) -/
  earlyPulse : BitVec 9
  /-- whether an idle core wakes on a latched request it cannot take (44_event_instructions.md R312; 93 U24) -/
  wakeDraw : Bool
  deriving DecidableEq, Repr

/-- No input is active. -/
def EnvInput.quiet : EnvInput where
  periph := 0
  nmi := false
  reset := false
  hwError := none
  timerZero := false
  emuReq := false
  trst := false
  earlyPulse := 0
  wakeDraw := false

/-- A range of addresses: `size` bytes from `base`. -/
structure AddrRange where
  base : Nat
  size : Nat
  deriving DecidableEq, Repr

/-- A statement placed in PROGRAM: its address and its bytes, as many as it is long (00_scope.md R6; 30_encoding.md R121). -/
structure Placed where
  address : Nat
  bytes : List Byte
  deriving DecidableEq, Repr

/-- PROGRAM: the finite map from addresses to statements with their lengths (00_scope.md R6). The canonical form is that of
`Program.wf`: addresses strictly rising, no two statements overlap, each as long as its first half-word says. -/
abbrev Program := List Placed

/-- The parameters of a platform (00_scope.md R8): the BMODE pins, from which RESET_VECTOR is derived, PROGRAM, the addresses
of MEM, LOOP_END_TRANSFER and SOFT_RESET; and the model's own three, the readings of R262 and R256 (logs 17 and 38) and of
R34 (log 13). No step changes them. -/
structure Platform where
  bmode : BitVec 2
  program : Program
  ram : List AddrRange
  loopEndTransfer : LoopEndTransfer
  softReset : SoftReset
  /-- the model's own (log 17) -/
  loopEndWrite : LoopEndWrite
  /-- the model's own (log 38) -/
  loopWriteSeen : LoopWriteSeen
  /-- the model's own (log 13) -/
  counterWrite : CounterWrite
  deriving DecidableEq, Repr

/-- The whole state (10_state.md R20). -/
structure State where
  /-- the address of the instruction being executed (R25) -/
  pc : Word
  /-- R0..R7 (R22) -/
  d : Vector Word 8
  /-- P0..P5 (R23) -/
  p : Vector Word 6
  /-- the Supervisor stack pointer (R24) -/
  ssp : Word
  /-- the User stack pointer (R24) -/
  usp : Word
  /-- the frame pointer (R33) -/
  fp : Word
  /-- the return registers (R28) -/
  rets : Word
  reti : Word
  retx : Word
  retn : Word
  rete : Word
  /-- LC0, LT0, LB0 (R30) -/
  loop0 : LoopUnit
  /-- LC1, LT1, LB1 (R30) -/
  loop1 : LoopUnit
  /-- R31 -/
  seqstat : Word
  /-- R32 -/
  syscfg : Word
  /-- the value last read from or written to CYCLES; every read is a fresh draw (R34; log 11) -/
  cycles : Word
  /-- the same of CYCLES2 -/
  cycles2 : Word
  /-- R35 -/
  astat : Astat
  /-- IMASK, bits 15..0 (R40) -/
  imask : BitVec 16
  /-- ILAT, bits 15..0 (R41) -/
  ilat : BitVec 16
  /-- IPEND, bits 15..0 (R42) -/
  ipend : BitVec 16
  /-- EVT0..EVT15 (R37) -/
  evt : Vector Word 16
  /-- the system interrupt controller (R43 to R47, R60) -/
  sic : Sic
  /-- the core is in the wait state (R60) -/
  idle : Bool
  /-- the double-fault output (R60) -/
  doubleFault : Bool
  /-- MEM: the bytes written since reset (20_memory.md R81) -/
  mem : Memory
  /-- the model's own: how many resets there were, which keys the bytes nothing has written (log 7, log 8) -/
  memEpoch : Nat
  /-- the parameters of the platform -/
  plat : Platform
  /-- the inputs of the coming steps, the next one first; after the last no input is active (log 14) -/
  env : List EnvInput
  /-- the model's own: how many free values were drawn (log 11) -/
  draws : Nat
  deriving DecidableEq, Repr

/-- Why the machine stops: the spec calls each of these stuck. -/
inductive Fault where
  /-- a fetch where PROGRAM defines no statement (20_memory.md R90; 93 U19). Raised by the fetch. Safe: the chip may raise
  an exception whose condition the spec does not give. -/
  | unmappedFetch
  /-- a data access where neither MEM nor a register is defined (20_memory.md R98; 93 U19). Raised by every statement that
  reaches data memory. Safe, as above. -/
  | unmappedData
  /-- a step after a double fault without RESET (60_exceptions.md R394; 93 U5). Raised by the step. Safe: the source gives
  no continuation. -/
  | doubleFaultState
  deriving DecidableEq, Repr

/-- Why the model gives a step no meaning. -/
inductive Refusal where
  /-- the arm of an instruction that has no meaning yet. Raised by exec. Safe. -/
  | notModelled (mnemonic : String)
  /-- the half-word is no statement of the spec (30_encoding.md R142; 93 U18). Raised by the fetch. Safe. -/
  | unlistedEncoding (w0 : BitVec 16)
  /-- a 64-bit multi-issue group (30_encoding.md R121; 93 U27). Raised by the fetch. Safe. -/
  | multiIssue (w0 : BitVec 16)
  /-- SP or SEQSTAT as the destination of a pop, and CYCLES or CYCLES2 where the platform refuses them (40_stack_and_moves.md
  R163; 93 U14; log 13). Raised by the pop. Safe. -/
  | popDestination
  /-- a multiple push or pop without a register, which is not an instruction (30_encoding.md R129). Raised by it; the decoder
  never gives one. Safe. -/
  | emptyMultiple
  /-- a move between two registers outside the R and P files, or into SEQSTAT, or into CYCLES or CYCLES2 where the platform
  refuses them (40_stack_and_moves.md R170; 93 U14; log 13). Raised by the move. Safe. -/
  | moveForm
  /-- SYSCFG written with bit 0 or bit 2 set (10_state.md R32; 93 U15). Raised by the move and the pop into SYSCFG. Safe. -/
  | syscfgMode
  /-- LSETUP with a start offset below 4 or an end before the start (43_loops.md R266; 93 U16). Raised by LSETUP. Safe. -/
  | lsetupOffsets
  /-- a taken transfer at an active loop end where LOOP_END_TRANSFER is `refuse` (43_loops.md R259; 93 U1; log 9). Raised by the
  jumps, the calls and the returns. Safe. -/
  | loopEndTransfer
  /-- a register of a loop unit written at the unit's own active loop end, where the platform refuses it (43_loops.md R262; 93
  U17; log 17). Raised by the pop, the move and LSETUP. Safe. -/
  | loopEndWrite
  /-- RAISE 1, or a reset request latched in ILAT[1], where SOFT_RESET is `refuse` (44_event_instructions.md R282; 93 U6;
  log 10). Raised by RAISE and by the step. Safe. -/
  | softReset
  /-- RAISE 0, 3 or 4 (44_event_instructions.md R281; 93 U7). Raised by RAISE. Safe. -/
  | raiseOperand
  /-- a return instruction at a level that is not its own (44_event_instructions.md R302; 93 U2). Raised by RTI, RTX, RTN, RTE.
  Safe. -/
  | wrongReturn
  /-- a data access to an address of PROGRAM (20_memory.md R81, R105; 93 U20). Raised by every statement that reaches data
  memory. Safe. -/
  | programAccess
  /-- a store to ILAT that writes 1 to an enabled bit (60_exceptions.md R365; 93 U3). Raised by a push. Safe. -/
  | ilatClearEnabled
  /-- a store to SIC_IAR0..2 or SIC_IWR while a source is unmasked (60_exceptions.md R378; 93 U4). Raised by a push. Safe. -/
  | sicConfigUnmasked
  /-- an unmasked source whose SIC_IAR field is 9..15 (60_exceptions.md R370; 93 U9). Raised by the step. Safe. -/
  | iarField
  /-- an emulation event is to be taken: its vector comes through JTAG (60_exceptions.md R396, R430; 93 U26). Raised by the
  step. Safe. -/
  | emulationEvent
  /-- a 16-bit access to a register that is no system register (20_memory.md R94, R96). Raised by the 16-bit access operation,
  which no statement in scope performs. Safe. -/
  | mmrHalfAccess
  deriving DecidableEq, Repr

/-- What a step or a meaning answers. -/
abbrev Outcome := Host.Outcome State Fault Refusal

/-! ## One update per field -/

def State.setPc (s : State) (v : Word) : State := { s with pc := v }
def State.setD (s : State) (r : DReg) (v : Word) : State := { s with d := s.d.set r.val v r.isLt }
def State.setP (s : State) (r : Fin 6) (v : Word) : State := { s with p := s.p.set r.val v r.isLt }
def State.setSsp (s : State) (v : Word) : State := { s with ssp := v }
def State.setUsp (s : State) (v : Word) : State := { s with usp := v }
def State.setFp (s : State) (v : Word) : State := { s with fp := v }
def State.setRets (s : State) (v : Word) : State := { s with rets := v }
def State.setReti (s : State) (v : Word) : State := { s with reti := v }
def State.setRetx (s : State) (v : Word) : State := { s with retx := v }
def State.setRetn (s : State) (v : Word) : State := { s with retn := v }
def State.setRete (s : State) (v : Word) : State := { s with rete := v }
def State.setLoop0 (s : State) (v : LoopUnit) : State := { s with loop0 := v }
def State.setLoop1 (s : State) (v : LoopUnit) : State := { s with loop1 := v }
def State.setSeqstat (s : State) (v : Word) : State := { s with seqstat := v }
def State.setSyscfg (s : State) (v : Word) : State := { s with syscfg := v }
def State.setCycles (s : State) (v : Word) : State := { s with cycles := v }
def State.setCycles2 (s : State) (v : Word) : State := { s with cycles2 := v }
def State.setAstat (s : State) (v : Astat) : State := { s with astat := v }
def State.setImask (s : State) (v : BitVec 16) : State := { s with imask := v }
def State.setIlat (s : State) (v : BitVec 16) : State := { s with ilat := v }
def State.setIpend (s : State) (v : BitVec 16) : State := { s with ipend := v }
def State.setEvt (s : State) (n : Fin 16) (v : Word) : State := { s with evt := s.evt.set n.val v n.isLt }
def State.setSic (s : State) (v : Sic) : State := { s with sic := v }
def State.setIdle (s : State) (v : Bool) : State := { s with idle := v }
def State.setDoubleFault (s : State) (v : Bool) : State := { s with doubleFault := v }
def State.setMem (s : State) (v : Memory) : State := { s with mem := v }
def State.setEnv (s : State) (v : List EnvInput) : State := { s with env := v }
def State.setDraws (s : State) (v : Nat) : State := { s with draws := v }

/-! ## Reset -/

/-- The machine right after reset (70_reset_and_hazards.md R440; 10_state.md R64). Registers whose value the spec leaves
unspecified hold 0 (DESIGN CHOICE, unsafe: log 2); BMODE is 00 (DESIGN CHOICE: log 3); nothing is loaded (log 4); data memory
covers the address space (DESIGN CHOICE: log 6); LOOP_END_TRANSFER and SOFT_RESET have their default `refuse` (00_scope.md R8);
a loop register written at its own loop end is refused, as 43_loops.md R262 says (log 17), and so are a pop and a move into CYCLES
or CYCLES2, as 40_stack_and_moves.md R163 and R170 say (log 13); every other write of a loop register is seen from the next
instruction on, as 43_loops.md R262 and 40_stack_and_moves.md R174 say (DEDUCED: log 38); no input is scheduled (DESIGN CHOICE: log 14). -/
def State.reset : State where
  pc := 0x20000000#32
  d := #v[0, 0, 0, 0, 0, 0, 0, 0]
  p := #v[0, 0, 0, 0, 0, 0]
  ssp := 0
  usp := 0
  fp := 0
  rets := 0
  reti := 0
  retx := 0
  retn := 0
  rete := 0
  loop0 := ⟨0, 0, 0⟩
  loop1 := ⟨0, 0, 0⟩
  seqstat := 0
  syscfg := 0x30#32
  cycles := 0
  cycles2 := 0
  astat := ⟨0, false, 0⟩
  imask := 0x001F#16
  ilat := 0
  ipend := 0x0012#16
  evt := #v[0, 0, 0, 0, 0, 0, 0, 0, 0, 0, 0, 0, 0, 0, 0, 0]
  sic := ⟨0, 0xFFFFFFFF#32, 0, 0x10000000#32, 0x33322221#32, 0x66655444#32, 0⟩
  idle := false
  doubleFault := false
  mem := []
  memEpoch := 0
  plat := ⟨0, [], [⟨0, 0x100000000⟩], .refuse, .refuse, .refuse, .fromNext, .refuse⟩
  env := []
  draws := 0

end Sys2Proof.Machine
end

