-- ==== Sys2Proof/Machine/Memory.lean ====
section
/-! DEFINITION. The operations over a memory (20_memory.md R80, R84) and its canonical form, and those over PROGRAM
(00_scope.md R6). -/

namespace Sys2Proof.Machine

/-- The byte listed at an address; none where nothing is listed. -/
def Memory.read : Memory → Nat → Option Byte
  | [], _ => none
  | (b, v) :: m, a => if a = b then some v else Memory.read m a

/-- The memory with a byte stored, kept in address order. -/
def Memory.write : Memory → Nat → Byte → Memory
  | [], a, v => [(a, v)]
  | (b, w) :: m, a, v =>
    if a < b then (a, v) :: (b, w) :: m
    else if a = b then (a, v) :: m
    else (b, w) :: Memory.write m a v

/-- The memory with bytes stored at consecutive addresses. -/
def Memory.writeBytes : Memory → Nat → List Byte → Memory
  | m, _, [] => m
  | m, a, v :: vs => Memory.writeBytes (Memory.write m a v) (a + 1) vs

/-- The canonical form: addresses strictly rising and below 2^32. -/
def Memory.wf : Memory → Bool
  | [] => true
  | [(a, _)] => decide (a < 0x100000000)
  | (a, _) :: (b, w) :: m => decide (a < b) && Memory.wf ((b, w) :: m)

/-- A word from its four bytes, least significant first (20_memory.md R84). -/
def wordOfBytes (b0 b1 b2 b3 : Byte) : Word :=
  b3 ++ b2 ++ b1 ++ b0

/-- Byte i of a word, bits 8i+7 to 8i (20_memory.md R84). -/
def byteOfWord (v : Word) (i : Nat) : Byte :=
  v.extractLsb' (8 * i) 8

/-- The four bytes of a word in the order of their addresses. -/
def wordBytes (v : Word) : List Byte :=
  [byteOfWord v 0, byteOfWord v 1, byteOfWord v 2, byteOfWord v 3]

/-! ## PROGRAM -/

/-- The bytes of the statement placed at an address; none where PROGRAM has no entry (00_scope.md R6). -/
def Program.statementAt : Program → Nat → Option (List Byte)
  | [], _ => none
  | e :: p, a => if a = e.address then some e.bytes else Program.statementAt p a

/-- The address is one of the statement's bytes; addresses are taken modulo 2^32 (10_state.md R27). -/
def Placed.covers (e : Placed) (a : Nat) : Bool :=
  decide ((a + (0x100000000 - e.address)) % 0x100000000 < e.bytes.length)

/-- The address belongs to PROGRAM. -/
def Program.covers (p : Program) (a : Nat) : Bool :=
  p.any (fun e => e.covers a)

/-- Two statements share no address. -/
def Placed.apart (e f : Placed) : Bool :=
  !e.covers f.address && !f.covers e.address

/-- PROGRAM with a statement added in the order of addresses. -/
def Program.insert : Program → Placed → Program
  | [], e => [e]
  | f :: p, e => if e.address < f.address then e :: f :: p else f :: Program.insert p e

/-- PROGRAM with a statement placed, in the place of those it overlaps. -/
def Program.place (p : Program) (e : Placed) : Program :=
  Program.insert (p.filter (fun f => e.apart f)) e

end Sys2Proof.Machine
end

