-- ==== Sys2Proof/Machine/Operands.lean ====
section
/-! DEFINITION. The mode, the registers as operands, and the immediates (10_state.md sections 2 to 9; 30_encoding.md R135;
60_exceptions.md R420). -/

namespace Sys2Proof.Machine

/-! ## The mode -/

/-- The three modes (60_exceptions.md R420). -/
inductive Mode where
  | user
  | supervisor
  | emulation
  deriving DecidableEq, Repr

/-- The mode is a function of IPEND (60_exceptions.md R420). -/
def State.mode (s : State) : Mode :=
  if s.ipend.getLsbD 0 then .emulation
  else if s.ipend &&& 0xFFEE#16 ≠ 0#16 then .supervisor
  else .user

/-! ## Registers -/

/-- SP names USP in User mode and SSP otherwise (10_state.md R24). -/
def State.sp (s : State) : Word :=
  if s.mode = .user then s.usp else s.ssp

/-- Write of the stack pointer of the current mode (10_state.md R24). -/
def State.setSp (s : State) (v : Word) : State :=
  if s.mode = .user then s.setUsp v else s.setSsp v

/-- Read of a data register (10_state.md R22). -/
def State.dreg (s : State) (r : DReg) : Word :=
  s.d.get r

/-- Read of a pointer register (10_state.md R23). -/
def State.preg (s : State) : PReg → Word
  | .p n => s.p.get n
  | .sp => s.sp
  | .fp => s.fp

/-- Write of a pointer register. -/
def State.setPreg (s : State) (r : PReg) (v : Word) : State :=
  match r with
  | .p n => s.setP n v
  | .sp => s.setSp v
  | .fp => s.setFp v

/-- Read of a register of the R or the P file. -/
def State.greg (s : State) : GReg → Word
  | .d r => s.dreg r
  | .p r => s.preg r

/-- Write of a register of the R or the P file. -/
def State.setGreg (s : State) (r : GReg) (v : Word) : State :=
  match r with
  | .d r => s.setD r v
  | .p r => s.setPreg r v

/-- A loop unit. -/
def State.loop (s : State) : LoopIdx → LoopUnit
  | .l0 => s.loop0
  | .l1 => s.loop1

/-- Write of a loop unit. -/
def State.setLoop (s : State) (k : LoopIdx) (u : LoopUnit) : State :=
  match k with
  | .l0 => s.setLoop0 u
  | .l1 => s.setLoop1 u

/-- ASTAT as a word, CC at bit 5 (10_state.md R35). -/
def astatWord (a : Astat) : Word :=
  a.hi ++ BitVec.ofBool a.cc ++ a.lo

/-- The ASTAT a word stands for (40_stack_and_moves.md R163: all 32 bits, CC the bit 5). -/
def astatOf (v : Word) : Astat :=
  ⟨v.extractLsb' 6 26, v.getLsbD 5, v.extractLsb' 0 5⟩

/-- The value of a register as an operand (40_stack_and_moves.md R160). CYCLES and CYCLES2 are draws (10_state.md R34). -/
def State.reg (s : State) : Reg → Word
  | .g r => s.greg r
  | .astat => astatWord s.astat
  | .rets => s.rets
  | .lc k => (s.loop k).lc
  | .lt k => (s.loop k).lt
  | .lb k => (s.loop k).lb
  | .cycles => Config.freeWord s.draws
  | .cycles2 => Config.freeWord s.draws
  | .usp => s.usp
  | .seqstat => s.seqstat
  | .syscfg => s.syscfg
  | .reti => s.reti
  | .retx => s.retx
  | .retn => s.retn
  | .rete => s.rete

/-- The state after a register was read: a draw of CYCLES or CYCLES2 is the value the register held, and is counted
(10_state.md R34; log 11). -/
def State.afterRead (s : State) : Reg → State
  | .cycles => (s.setCycles (Config.freeWord s.draws)).setDraws (s.draws + 1)
  | .cycles2 => (s.setCycles2 (Config.freeWord s.draws)).setDraws (s.draws + 1)
  | .g _ | .astat | .rets | .lc _ | .lt _ | .lb _ | .usp | .seqstat | .syscfg | .reti | .retx | .retn | .rete => s

/-- Write of a register as a destination, with no effect on IPEND (40_stack_and_moves.md R163, R170, R172). SEQSTAT is
read-only: a write to it is discarded (10_state.md R31; the model's reading, log 31). A write to CYCLES or CYCLES2 has no
observable effect: a read is a fresh draw (R34; log 13). SYSCFG is stored whole (log 18). -/
def State.setReg (s : State) (r : Reg) (v : Word) : State :=
  match r with
  | .g r => s.setGreg r v
  | .astat => s.setAstat (astatOf v)
  | .rets => s.setRets v
  | .lc k => s.setLoop k ⟨v, (s.loop k).lt, (s.loop k).lb⟩
  | .lt k => s.setLoop k ⟨(s.loop k).lc, v, (s.loop k).lb⟩
  | .lb k => s.setLoop k ⟨(s.loop k).lc, (s.loop k).lt, v⟩
  | .cycles => s.setCycles v
  | .cycles2 => s.setCycles2 v
  | .usp => s.setUsp v
  | .seqstat => s
  | .syscfg => s.setSyscfg v
  | .reti => s.setReti v
  | .retx => s.setRetx v
  | .retn => s.setRetn v
  | .rete => s.setRete v

/-- IMASK, ILAT and IPEND as 32-bit values: bits 31..16 read 0 (10_state.md R39). -/
def cecWord (v : BitVec 16) : Word :=
  v.setWidth 32

/-- Write of IMASK: bits 15..5 take the written bits, bits 4..0 stay 1 (10_state.md R40; 20_memory.md R94). -/
def State.writeImask (s : State) (v : Word) : State :=
  s.setImask (v.extractLsb' 5 11 ++ 0b11111#5)

/-! ## Immediates (30_encoding.md R135) -/

/-- The byte offset of JUMP.S: `sext_13(field << 1)`. -/
def offset13 (f : BitVec 12) : Word :=
  (f ++ 0#1).signExtend 32

/-- The byte offset of JUMP.L and CALL: `sext_25(field << 1)`. -/
def offset25 (f : BitVec 24) : Word :=
  (f ++ 0#1).signExtend 32

/-- The byte offset of a conditional jump: `sext_11(field << 1)`. -/
def offset11 (f : BitVec 10) : Word :=
  (f ++ 0#1).signExtend 32

/-- The start offset of LSETUP: `zext_5(field << 1)`. -/
def loopStart (f : BitVec 4) : Word :=
  (f ++ 0#1).setWidth 32

/-- The end offset of LSETUP: `zext_11(field << 1)`. -/
def loopEnd (f : BitVec 10) : Word :=
  (f ++ 0#1).setWidth 32

/-- The constant of a signed compare: `sext_3(field)`. -/
def signedImm (f : BitVec 3) : Word :=
  f.signExtend 32

/-- The constant of an unsigned compare: `zext_3(field)`. -/
def unsignedImm (f : BitVec 3) : Word :=
  f.setWidth 32

end Sys2Proof.Machine
end

