-- ==== Sys2Proof/Machine/Flags.lean ====
section
/-! DEFINITION. The condition code: the relations of the compares and what a compare does to ASTAT (42_condition_code.md
R220, R221). -/

namespace Sys2Proof.Machine

/-- `a == b`. -/
def relEq (a b : Word) : Bool :=
  decide (a = b)

/-- `S(a) < S(b)`. -/
def relLt (a b : Word) : Bool :=
  decide (a.toInt < b.toInt)

/-- `S(a) <= S(b)`. -/
def relLe (a b : Word) : Bool :=
  decide (a.toInt ≤ b.toInt)

/-- `U(a) < U(b)`. -/
def relLtu (a b : Word) : Bool :=
  decide (a.toNat < b.toNat)

/-- `U(a) <= U(b)`. -/
def relLeu (a b : Word) : Bool :=
  decide (a.toNat ≤ b.toNat)

/-- CC (10_state.md R35). -/
def State.cc (s : State) : Bool :=
  s.astat.cc

/-- A compare of pointer registers: only CC changes (42_condition_code.md R221). -/
def State.compareP (s : State) (c : Bool) : State :=
  s.setAstat ⟨s.astat.hi, c, s.astat.lo⟩

/-- A compare of data registers: CC takes the result and every other bit of ASTAT a draw (42_condition_code.md R221; 93 U22;
log 11). -/
def State.compareD (s : State) (c : Bool) : State :=
  (s.setAstat ⟨(Config.freeWord s.draws).extractLsb' 6 26, c, (Config.freeWord s.draws).extractLsb' 0 5⟩).setDraws
    (s.draws + 1)

end Sys2Proof.Machine
end

