-- ==== Sys2Proof/Machine/Ops.lean ====
section
/-! DEFINITION. The operations the meanings share: exceptions and event entry, the return from an event, the next address,
memory and the memory-mapped registers, reset. -/

namespace Sys2Proof.Machine

/-! ## Exceptions (60_exceptions.md R385, R388) -/

/-- The exceptions of Table 4-11 under the names of 60_exceptions.md R385. -/
inductive Exc where
  | forced (m : BitVec 4)
  | singleStep
  | traceBufferFull
  | undefinedInstruction
  | illegalCombination
  | dataProtection
  | dataMisaligned
  | unrecoverable
  | dataCplbMiss
  | dataCplbMultipleHits
  | watchpoint
  | fetchAccessError
  | fetchMisaligned
  | fetchProtection
  | fetchCplbMiss
  | fetchCplbMultipleHits
  | illegalSupervisorResource
  deriving DecidableEq, Repr

/-- EXCAUSE[5:0] of an exception (60_exceptions.md R385). -/
def Exc.code : Exc → BitVec 6
  | .forced m => m.setWidth 6
  | .singleStep => 0x10
  | .traceBufferFull => 0x11
  | .undefinedInstruction => 0x21
  | .illegalCombination => 0x22
  | .dataProtection => 0x23
  | .dataMisaligned => 0x24
  | .unrecoverable => 0x25
  | .dataCplbMiss => 0x26
  | .dataCplbMultipleHits => 0x27
  | .watchpoint => 0x28
  | .fetchAccessError => 0x29
  | .fetchMisaligned => 0x2A
  | .fetchProtection => 0x2B
  | .fetchCplbMiss => 0x2C
  | .fetchCplbMultipleHits => 0x2D
  | .illegalSupervisorResource => 0x2E

/-- Type S, a service exception: the causing instruction is executed; the others are of type E (60_exceptions.md R382,
R385). -/
def Exc.service : Exc → Bool
  | .forced _ | .singleStep | .traceBufferFull => true
  | .undefinedInstruction | .illegalCombination | .dataProtection | .dataMisaligned | .unrecoverable | .dataCplbMiss
  | .dataCplbMultipleHits | .watchpoint | .fetchAccessError | .fetchMisaligned | .fetchProtection | .fetchCplbMiss
  | .fetchCplbMultipleHits | .illegalSupervisorResource => false

/-- The priority among exceptions of one instruction, 1 the highest (Table 4-12, 60_exceptions.md R388; the data accesses of
this spec are those of DAG0). -/
def Exc.priority : Exc → Nat
  | .unrecoverable => 1
  | .fetchCplbMultipleHits => 2
  | .fetchMisaligned => 3
  | .fetchProtection => 4
  | .fetchCplbMiss => 5
  | .fetchAccessError => 6
  | .watchpoint => 7
  | .undefinedInstruction => 8
  | .illegalCombination => 9
  | .illegalSupervisorResource => 10
  | .dataCplbMultipleHits => 11
  | .dataMisaligned => 12
  | .dataProtection => 13
  | .dataCplbMiss => 14
  | .forced _ => 19
  | .singleStep => 20
  | .traceBufferFull => 21

/-- SEQSTAT with EXCAUSE written (10_state.md R31). -/
def State.setExcause (s : State) (c : BitVec 6) : State :=
  s.setSeqstat (s.seqstat.extractLsb' 6 26 ++ c)

/-- SEQSTAT with HWERRCAUSE, bits 18..14, written (10_state.md R31; 60_exceptions.md R411). -/
def State.setHwErrCause (s : State) (c : BitVec 5) : State :=
  s.setSeqstat (s.seqstat.extractLsb' 19 13 ++ c ++ s.seqstat.extractLsb' 0 14)

/-- ILAT with one bit set (60_exceptions.md R360; 44_event_instructions.md R280). -/
def State.latchEvent (s : State) (n : Nat) : State :=
  s.setIlat (s.ilat ||| (1#16 <<< n))

/-- The return register an event writes (60_exceptions.md R400). -/
def State.saveReturn (s : State) (n : Fin 16) (ret : Word) : State :=
  if n = 2 then s.setRetn ret
  else if n = 3 then s.setRetx ret
  else if 5 ≤ n.val then s.setReti ret
  else s

/-- The bits of IPEND an event entry sets: its own, and bit 4 for events 5..15 (60_exceptions.md R400). -/
def entryBits (n : Fin 16) : BitVec 16 :=
  if 5 ≤ n.val then (1#16 <<< n.val) ||| 0x0010#16 else 1#16 <<< n.val

/-- The acknowledge of 60_exceptions.md R376: entry of IVGn clears sic_sent[n]. -/
def Sic.acknowledge (c : Sic) (n : Fin 16) : Sic :=
  if 7 ≤ n.val then { c with sent := c.sent &&& ~~~(1#9 <<< (n.val - 7)) } else c

/-- Event entry, `TakeEvent(n, ret)` (60_exceptions.md R400). -/
def takeEvent (n : Fin 16) (ret : Word) (s : State) : State :=
  (((((s.saveReturn n ret).setIlat (s.ilat &&& ~~~(1#16 <<< n.val))).setIpend (s.ipend ||| entryBits n)).setSic
    (s.sic.acknowledge n)).setIdle false).setPc (s.evt.get n)

/-- An exception, NMI, reset or emulation handler is running (60_exceptions.md R392). -/
def State.inHandler (s : State) : Bool :=
  decide (s.ipend &&& 0x000F#16 ≠ 0#16)

/-- `DoubleFault(a)` with `a` the address of the instruction (60_exceptions.md R394). -/
def takeDoubleFault (s : State) : State :=
  ((s.setExcause Exc.unrecoverable.code).setRetx s.pc).setDoubleFault true

/-- Taking an exception (60_exceptions.md R392). `s` is the state before the causing instruction; `done` the state after it, of
which only a service exception keeps the effects and takes the return address. -/
def takeException (x : Exc) (s done : State) : State :=
  if s.inHandler then takeDoubleFault s
  else if x.service then takeEvent 3 done.pc (done.setExcause x.code)
  else takeEvent 3 s.pc (s.setExcause x.code)

/-- Why a part of a meaning does not answer a state. -/
inductive Stop where
  | exc (x : Exc)
  | fault (f : Fault)
  | refusal (r : Refusal)
  deriving DecidableEq, Repr

/-- The outcome of an instruction in state `s`: its result, or the error exception it raises, with nothing of the instruction
done (60_exceptions.md R382). -/
def outcome (s : State) : Except Stop State → Outcome
  | .ok t => .next t
  | .error (.exc x) => .next (takeException x s s)
  | .error (.fault f) => .fault f
  | .error (.refusal r) => .refused r

/-- A protected instruction: in User mode it raises 0x2E (60_exceptions.md R422). -/
def supervisorOnly (s : State) (o : Outcome) : Outcome :=
  if s.mode = .user then .next (takeException .illegalSupervisorResource s s) else o

/-! ## The next address (43_loops.md) -/

/-- The unit at its own loop end with LC = 1 expires: LC becomes 0 (43_loops.md R256). -/
def State.expire (s : State) (k : LoopIdx) : State :=
  if s.pc = (s.loop k).lb ∧ (s.loop k).lc = 1 then s.setLoop k ⟨0, (s.loop k).lt, (s.loop k).lb⟩ else s

/-- The unit returns to its top at this instruction (43_loops.md R252, R253). -/
def State.loopsBack (s : State) (k : LoopIdx) : Bool :=
  decide (s.pc = (s.loop k).lb) && decide (2 ≤ (s.loop k).lc.toNat)

/-- The loop-back of a unit: LC is decremented and execution continues at LT (43_loops.md R256). -/
def State.loopBack (s : State) (k : LoopIdx) : State :=
  (s.setLoop k ⟨(s.loop k).lc - 1, (s.loop k).lt, (s.loop k).lb⟩).setPc (s.loop k).lt

/-- `NextPC(pc, len)`: the next address after an instruction without a taken transfer, unit 1 before unit 0 (43_loops.md
R255, R256). DESIGN CHOICE: the return of a subroutine called from LBx to LBx + len is an instruction like any other, at whose
end pc is what is compared with LBx, so that unit x does nothing at it (41_jumps_calls.md R210 leaves it open; log 37). -/
def advance (len : Word) (s : State) : State :=
  if s.loopsBack .l1 then s.loopBack .l1
  else if (s.expire .l1).loopsBack .l0 then (s.expire .l1).loopBack .l0
  else ((s.expire .l1).expire .l0).setPc (s.pc + len)

/-- The instruction lies at the loop end of an active unit (43_loops.md R259). -/
def State.atActiveEnd (s : State) (k : LoopIdx) : Bool :=
  decide (s.pc = (s.loop k).lb) && decide ((s.loop k).lc ≠ 0)

/-- LC of a unit decremented if the instruction lies at its active end (43_loops.md R259). -/
def State.decrementAtEnd (s : State) (k : LoopIdx) : State :=
  if s.atActiveEnd k then s.setLoop k ⟨(s.loop k).lc - 1, (s.loop k).lt, (s.loop k).lb⟩ else s

/-- LOOP_END_TRANSFER is `refuse` and the instruction lies at the end of an active loop: a taken transfer has no meaning
(43_loops.md R259). -/
def State.transferRefused (s : State) : Bool :=
  decide (s.plat.loopEndTransfer = .refuse) && (s.atActiveEnd .l0 || s.atActiveEnd .l1)

/-- What a taken transfer does to the loop units: with the value `transferWinsDecrement` of LOOP_END_TRANSFER it decrements LC of
each unit at whose active end it lies, and else nothing (43_loops.md R259). -/
def transferLoops (s : State) : State :=
  match s.plat.loopEndTransfer with
  | .refuse | .transferWins => s
  | .transferWinsDecrement => (s.decrementAtEnd .l0).decrementAtEnd .l1

/-- The state after a taken control transfer (00_scope.md R10; 43_loops.md R259). -/
def transfer (target : Word) (s : State) : State :=
  (transferLoops s).setPc target

/-- `pc <- target`: a taken control transfer, refused where LOOP_END_TRANSFER gives it no meaning (00_scope.md R10; 43_loops.md
R259). -/
def takeTransfer (target : Word) (s : State) : Outcome :=
  if s.transferRefused then .refused .loopEndTransfer else .next (transfer target s)

/-- The instruction at LBk writes a register of unit `k` while LCk is not 0 before or after the write: the source does not say
what unit `k` does then (43_loops.md R262). -/
def loopClash (k : LoopIdx) (before after : State) : Bool :=
  decide (before.pc = (before.loop k).lb) && (decide ((before.loop k).lc ≠ 0) || decide ((after.loop k).lc ≠ 0))

/-- A write of a register of unit `k` that has no meaning: the platform refuses it at the unit's own active loop end (43_loops.md
R262; log 17). -/
def loopWriteRefused (k : LoopIdx) (before after : State) : Bool :=
  decide (before.plat.loopEndWrite = .refuse) && loopClash k before after

/-- The check of R262 for an instruction that writes register `r` (43_loops.md R262). -/
def checkLoopWrite (r : Reg) (before after : State) : Except Stop Unit :=
  match r with
  | .lc k | .lt k | .lb k => if loopWriteRefused k before after then .error (.refusal .loopEndWrite) else .ok ()
  | .g _ | .astat | .rets | .cycles | .cycles2 | .usp | .seqstat | .syscfg | .reti | .retx | .retn | .rete => .ok ()

/-- `NextPC` where unit `k` looks at the registers `seen` and not at those that stand: LTk and LBk stay as they were written, and
LCk too unless the unit counted, in which case it is the count the unit left. -/
def advanceSeeing (len : Word) (k : LoopIdx) (seen : LoopUnit) (s : State) : State :=
  let t := advance len (s.setLoop k seen)
  t.setLoop k ⟨if (t.loop k).lc = seen.lc then (s.loop k).lc else (t.loop k).lc, (s.loop k).lt, (s.loop k).lb⟩

/-- The next free value for the registers of a loop unit (log 11, log 17). -/
def State.freeUnit (s : State) : LoopUnit :=
  ⟨Config.freeWord s.draws, Config.freeWord (s.draws + 1), Config.freeWord (s.draws + 2)⟩

/-- The next address after an instruction that wrote registers of unit `k`: the unit sees the write from the next instruction on
(43_loops.md R262; 40_stack_and_moves.md R174), or at the end of this one (43_loops.md R256), by the platform: the readings differ
for an instruction that writes its own address to LBk (log 38). At the unit's own active loop end, where the platform does not
refuse the write, what it sees is a free value (DESIGN CHOICE, log 17). -/
def advanceWritten (len : Word) (k : LoopIdx) (before after : State) : State :=
  if loopClash k before after then (advanceSeeing len k after.freeUnit after).setDraws (after.draws + 3)
  else
    match before.plat.loopWriteSeen with
    | .fromNext => advanceSeeing len k (before.loop k) after
    | .atOnce => advance len after

/-- The end of a 2-byte instruction that wrote register `r`: it goes on to the next address (43_loops.md R256, R262). -/
def finishWrite (r : Reg) (before after : State) : State :=
  match r with
  | .lc k | .lt k | .lb k => advanceWritten 2 k before after
  | .g _ | .astat | .rets | .cycles | .cycles2 | .usp | .seqstat | .syscfg | .reti | .retx | .retn | .rete => advance 2 after

/-! ## The level being serviced and the return from an event -/

/-- The event numbers in order of priority; 4 is no event (60_exceptions.md R322). -/
def eventLevels : List (Fin 16) :=
  [0, 1, 2, 3, 5, 6, 7, 8, 9, 10, 11, 12, 13, 14, 15]

/-- `low(IPEND)`: the event being serviced, none if no event bit is set (10_state.md R42; 44_event_instructions.md R294). -/
def State.level (s : State) : Option (Fin 16) :=
  eventLevels.find? (fun n => s.ipend.getLsbD n.val)

/-- The return from the event of level `n`: its bit of IPEND and the bits of `also` are cleared and execution continues at
`target` (44_event_instructions.md R294, R296 to R299). -/
def returnFromEvent (n : Fin 16) (also : BitVec 16) (target : Word) (s : State) : Outcome :=
  takeTransfer target (s.setIpend (s.ipend &&& ~~~((1#16 <<< n.val) ||| also)))

/-! ## Memory-mapped registers (20_memory.md R92, R94) -/

/-- The registers reached by an address. -/
inductive Mmr where
  | evt (n : Fin 16)
  | imask
  | ipend
  | ilat
  | sicImask
  | sicIar0
  | sicIar1
  | sicIar2
  | sicIsr
  | sicIwr
  deriving DecidableEq, Repr

/-- The register at a word address (20_memory.md R92). -/
def mmrAt (a : Word) : Option Mmr :=
  if a.extractLsb' 6 26 = 0x3FF8080#26 ∧ a.extractLsb' 0 2 = 0#2 then some (.evt (a.extractLsb' 2 4).toFin)
  else if a = 0xFFE02104#32 then some .imask
  else if a = 0xFFE02108#32 then some .ipend
  else if a = 0xFFE0210C#32 then some .ilat
  else if a = 0xFFC0010C#32 then some .sicImask
  else if a = 0xFFC00110#32 then some .sicIar0
  else if a = 0xFFC00114#32 then some .sicIar1
  else if a = 0xFFC00118#32 then some .sicIar2
  else if a = 0xFFC00120#32 then some .sicIsr
  else if a = 0xFFC00124#32 then some .sicIwr
  else none

/-- What a 32-bit read of a register returns (20_memory.md R94). -/
def mmrRead (m : Mmr) (s : State) : Word :=
  match m with
  | .evt n => s.evt.get n
  | .imask => cecWord s.imask
  | .ipend => cecWord s.ipend
  | .ilat => cecWord s.ilat
  | .sicImask => s.sic.imask
  | .sicIar0 => s.sic.iar0
  | .sicIar1 => s.sic.iar1
  | .sicIar2 => s.sic.iar2
  | .sicIsr => s.sic.isr
  | .sicIwr => s.sic.iwr

/-- The bits of a store to ILAT that ask for a clear: bits 15..5 (60_exceptions.md R365). -/
def ilatClearMask (v : Word) : BitVec 16 :=
  v.setWidth 16 &&& 0xFFE0#16

/-- A peripheral source is unmasked: SIC_IMASK[23:0] is not 0 (60_exceptions.md R378). -/
def Sic.anyUnmasked (c : Sic) : Bool :=
  decide (c.imask.extractLsb' 0 24 ≠ 0#24)

/-- A write of a SIC configuration register, which the spec gives a meaning only while every source is masked
(60_exceptions.md R378). -/
def sicConfigure (s : State) (c : Sic) : Except Stop State :=
  if s.sic.anyUnmasked then .error (.refusal .sicConfigUnmasked) else .ok (s.setSic c)

/-- What a 32-bit write of a register does (20_memory.md R94; 60_exceptions.md R365, R378). -/
def mmrWrite (m : Mmr) (v : Word) (s : State) : Except Stop State :=
  match m with
  | .evt n => .ok (s.setEvt n v)
  | .imask => .ok (s.writeImask v)
  | .ipend => .ok s
  | .ilat =>
    if ilatClearMask v &&& s.imask ≠ 0#16 then .error (.refusal .ilatClearEnabled)
    else .ok (s.setIlat (s.ilat &&& ~~~(ilatClearMask v)))
  | .sicImask => .ok (s.setSic { s.sic with imask := v })
  | .sicIar0 => sicConfigure s { s.sic with iar0 := v }
  | .sicIar1 => sicConfigure s { s.sic with iar1 := v }
  | .sicIar2 => sicConfigure s { s.sic with iar2 := v }
  | .sicIsr => .ok s
  | .sicIwr => sicConfigure s { s.sic with iwr := v }

/-! ## Data memory (20_memory.md R81, R86, R95, R98) -/

/-- The address holds data memory (the parameter MEM, 00_scope.md R8). -/
def State.isRam (s : State) (a : Nat) : Bool :=
  s.plat.ram.any (fun r => decide (r.base ≤ a) && decide (a < r.base + r.size))

/-- The address belongs to PROGRAM (20_memory.md R81). -/
def State.isProgram (s : State) (a : Nat) : Bool :=
  s.plat.program.covers a

/-- What a byte of data memory reads as: the byte written, or a free one (log 7). -/
def State.dataByte (s : State) (a : Nat) : Byte :=
  (s.mem.read a).getD (Config.initialByte s.memEpoch a)

/-- What a word of data memory reads as, little-endian (20_memory.md R84). -/
def State.dataWord (s : State) (a : Nat) : Word :=
  wordOfBytes (s.dataByte a) (s.dataByte (a + 1)) (s.dataByte (a + 2)) (s.dataByte (a + 3))

/-- The state with a word of data memory written, little-endian. -/
def State.setDataWord (s : State) (a : Nat) (v : Word) : State :=
  s.setMem (Memory.writeBytes s.mem a (wordBytes v))

/-- What a 32-bit access at an address reaches: a register, or data memory (none). Misaligned 0x24, then a register in User
mode 0x23 (20_memory.md R86, R95; 60_exceptions.md R388); an address of PROGRAM refused (R81), an undefined one stuck (R98).
DESIGN CHOICE: where PROGRAM covers the address of a register, the register is reached (log 35); one byte of PROGRAM in the
word is enough for the refusal (log 5). -/
def accessTarget (a : Word) (s : State) : Except Stop (Option Mmr) :=
  if a.extractLsb' 0 2 ≠ 0#2 then .error (.exc .dataMisaligned)
  else
    match mmrAt a with
    | some m => if s.mode = .user then .error (.exc .dataProtection) else .ok (some m)
    | none =>
      if s.isProgram a.toNat || s.isProgram (a.toNat + 1) || s.isProgram (a.toNat + 2) || s.isProgram (a.toNat + 3) then
        .error (.refusal .programAccess)
      else if s.isRam a.toNat && s.isRam (a.toNat + 1) && s.isRam (a.toNat + 2) && s.isRam (a.toNat + 3) then .ok none
      else .error (.fault .unmappedData)

/-- `MemRead(addr, 4)` (00_scope.md R10). -/
def memRead (a : Word) (s : State) : Except Stop Word :=
  match accessTarget a s with
  | .ok (some m) => .ok (mmrRead m s)
  | .ok none => .ok (s.dataWord a.toNat)
  | .error e => .error e

/-- `MemWrite(addr, 4, v)` (00_scope.md R10). -/
def memWrite (a v : Word) (s : State) : Except Stop State :=
  match accessTarget a s with
  | .ok (some m) => mmrWrite m v s
  | .ok none => .ok (s.setDataWord a.toNat v)
  | .error e => .error e

/-! ## 16-bit access to a register (20_memory.md R96; log 26). No statement in scope performs one. -/

/-- A faulty access to a system register: IVHW is latched with the cause 0b00010 (20_memory.md R96; 60_exceptions.md R411). -/
def latchSystemMmrError (s : State) : State :=
  (s.setHwErrCause 0b00010#5).latchEvent 5

/-- A 16-bit load at a register's address: 0x23 in User mode (20_memory.md R95); else a system register latches IVHW and the
value is a draw (93 U10). -/
def mmrHalfRead (m : Mmr) (s : State) : Except Stop (BitVec 16 × State) :=
  if s.mode = .user then .error (.exc .dataProtection)
  else
    match m with
    | .sicImask | .sicIar0 | .sicIar1 | .sicIar2 | .sicIsr | .sicIwr =>
      .ok ((Config.freeWord s.draws).setWidth 16, (latchSystemMmrError s).setDraws (s.draws + 1))
    | .evt _ | .imask | .ipend | .ilat => .error (.refusal .mmrHalfAccess)

/-- A 16-bit store at a register's address: 0x23 in User mode (20_memory.md R95); else a system register latches IVHW and its
content is a draw; SIC_ISR follows the request lines whatever is stored (93 U10; 10_state.md R44). DESIGN CHOICE: a store to
SIC_IAR0..2 or SIC_IWR while a source is unmasked falls under two rules that the spec does not order, the refusal of
60_exceptions.md R378 and the latch and the draw of U10; the model takes U10 (log 26). -/
def mmrHalfWrite (m : Mmr) (s : State) : Except Stop State :=
  let t := (latchSystemMmrError s).setDraws (s.draws + 1)
  let v := Config.freeWord s.draws
  if s.mode = .user then .error (.exc .dataProtection)
  else
    match m with
    | .sicImask => .ok (t.setSic { s.sic with imask := v })
    | .sicIar0 => .ok (t.setSic { s.sic with iar0 := v })
    | .sicIar1 => .ok (t.setSic { s.sic with iar1 := v })
    | .sicIar2 => .ok (t.setSic { s.sic with iar2 := v })
    | .sicIsr => .ok t
    | .sicIwr => .ok (t.setSic { s.sic with iwr := v })
    | .evt _ | .imask | .ipend | .ilat => .error (.refusal .mmrHalfAccess)

/-! ## Reset (70_reset_and_hazards.md R440, R441, R442) -/

/-- `RESET_VECTOR(BMODE)` (70_reset_and_hazards.md R441). -/
def resetVector (bmode : BitVec 2) : Word :=
  if bmode = 0#2 then 0x20000000#32 else 0xEF000000#32

/-- The state a reset leaves: `ResetState(BMODE)`, SIC_ISR at the request lines; the platform, the inputs to come and the
count of draws are no state of the spec's and go on, and memory is a fresh unknown (70_reset_and_hazards.md R440, R442;
log 8). -/
def resetState (lines : BitVec 24) (s : State) : State :=
  { State.reset with
    pc := resetVector s.plat.bmode
    sic := { State.reset.sic with isr := lines.setWidth 32 }
    memEpoch := s.memEpoch + 1
    plat := s.plat
    env := s.env
    draws := s.draws }

end Sys2Proof.Machine
end

