-- ==== Sys2Proof/Machine/Controller.lean ====
section
/-! DEFINITION. What happens in a step before an instruction: the inputs are latched, an idle core may wake, and a takeable
event is taken (00_scope.md R11; 60_exceptions.md sections 3, 4 and 6; 44_event_instructions.md R312). -/

namespace Sys2Proof.Machine

/-! ## Inputs -/

/-- HWERRCAUSE of a hardware error (60_exceptions.md R411). -/
def HwError.code : HwError → BitVec 5
  | .dmaBusComparator => 0b00001
  | .systemMmr => 0b00010
  | .externalMemory => 0b00011
  | .performanceMonitor => 0b10010

/-- The inputs of the coming step. After the last scheduled one no input is active and the wake-up draw is a free value
(log 14, log 15). -/
def State.nextInput (s : State) : EnvInput :=
  match s.env with
  | e :: _ => e
  | [] => { EnvInput.quiet with wakeDraw := (Config.freeWord s.draws).getLsbD 0 }

/-- A hardware error is recorded and latched at every step it is active (60_exceptions.md R411). -/
def latchHwError (h : Option HwError) (s : State) : State :=
  match h with
  | some c => (s.setHwErrCause c.code).latchEvent 5
  | none => s

/-- An event input sets its bit of ILAT (60_exceptions.md R360). -/
def latchWhen (active : Bool) (n : Nat) (s : State) : State :=
  if active then s.latchEvent n else s

/-- TRST clears ILAT[0] (10_state.md R41). DESIGN CHOICE: a request of the same step included (log 24). -/
def latchTrst (active : Bool) (s : State) : State :=
  if active then s.setIlat (s.ilat &&& 0xFFFE#16) else s

/-- The core's own inputs (60_exceptions.md R360, R331). DESIGN CHOICE: an emulator request and TRST in one step, both of which
R430 constrains to false, leave ILAT[0] clear: TRST comes last (log 24). -/
def latchCore (e : EnvInput) (s : State) : State :=
  latchTrst e.trst (latchWhen e.emuReq 0 (latchWhen e.nmi 2 (latchWhen e.timerZero 6 (latchHwError e.hwError s))))

/-! ## The system interrupt controller -/

/-- IARfield(n): the 4-bit field of peripheral source n (10_state.md R47). -/
def Sic.field (c : Sic) (n : Nat) : BitVec 4 :=
  (if n < 8 then c.iar0 else if n < 16 then c.iar1 else c.iar2).extractLsb' (4 * (n % 8)) 4

/-- An unmasked source has a field that Table 4-8 does not define (60_exceptions.md R370; log 22). -/
def Sic.badField (c : Sic) : Bool :=
  (List.range 24).any (fun n => c.imask.getLsbD n && decide (8 < (c.field n).toNat))

/-- ivg_req[7..15], bit 0 for IVG7: some unmasked source assigned to the input is asserted (60_exceptions.md R332, R370). -/
def Sic.requests (c : Sic) : BitVec 9 :=
  (List.range 24).foldl
    (fun r n => if c.isr.getLsbD n && c.imask.getLsbD n then r ||| (1#9 <<< (c.field n).toNat) else r) 0#9

/-- The pulses of this step: a request without an outstanding pulse pulses if its IPEND bit is clear, and by the draw if it is
set (60_exceptions.md R376). -/
def Sic.pulses (c : Sic) (ipend : BitVec 16) (early : BitVec 9) : BitVec 9 :=
  c.requests &&& ~~~c.sent &&& (~~~(ipend.extractLsb' 7 9) ||| early)

/-- SIC_ISR follows the request lines, sic_sent follows requests and pulses (60_exceptions.md R370, R376). -/
def Sic.latched (c : Sic) (lines : BitVec 24) (ipend : BitVec 16) (early : BitVec 9) : Sic :=
  let c' := { c with isr := lines.setWidth 32 }
  { c' with sent := c'.requests &&& (c.sent ||| c'.pulses ipend early) }

/-- The SIC's part of a step: its registers follow the lines and its pulses set ILAT[15:7] (60_exceptions.md R360, R376). -/
def latchSic (e : EnvInput) (s : State) : State :=
  (s.setSic (s.sic.latched e.periph s.ipend e.earlyPulse)).setIlat
    (s.ilat ||| (({ s.sic with isr := e.periph.setWidth 32 } : Sic).pulses s.ipend e.earlyPulse ++ 0#7))

/-- Step 0 of a machine step: the inputs are latched (00_scope.md R11). -/
def latchInputs (e : EnvInput) (s : State) : State :=
  latchSic e (latchCore e s)

/-! ## Acceptance (60_exceptions.md R396) -/

/-- `n < cur`: the event outranks the one being serviced. -/
def State.outranks (s : State) (n : Fin 16) : Bool :=
  match s.level with
  | some c => decide (n < c)
  | none => true

/-- The event is takeable now: the NMI and the interrupts 5..15. -/
def State.takeable (s : State) (n : Fin 16) : Bool :=
  if n = 2 then s.ilat.getLsbD 2 && s.outranks 2
  else decide (5 ≤ n.val) && s.ilat.getLsbD n.val && s.imask.getLsbD n.val && !s.ipend.getLsbD 4 && s.outranks n

/-- The event to take: the takeable one with the smallest number. -/
def State.pendingEvent (s : State) : Option (Fin 16) :=
  eventLevels.find? s.takeable

/-- An emulation event is to be taken: requested and not already active (60_exceptions.md R396, R430). -/
def State.emulationPending (s : State) : Bool :=
  s.ilat.getLsbD 0 && !s.ipend.getLsbD 0

/-! ## Idle and the event check -/

/-- `w_sic`: a request line enabled for wake-up is asserted (44_event_instructions.md R312). -/
def Sic.wakes (c : Sic) : Bool :=
  decide ((c.isr &&& c.iwr).extractLsb' 0 24 ≠ 0#24)

/-- `w_any`: an interrupt is latched (44_event_instructions.md R312). -/
def State.anyLatched (s : State) : Bool :=
  decide (s.ilat &&& 0xFFE0#16 ≠ 0#16)

/-- The event check of a step (00_scope.md R11): the event to take is taken with the current pc as return address
(60_exceptions.md R400, R402), and the step ends; else the instruction may run. -/
def checkEvents (s : State) : Except Outcome State :=
  match s.pendingEvent with
  | some n => .error (.next (takeEvent n s.pc s))
  | none => .ok s

/-- Leaving the idle state (44_event_instructions.md R312). `wake` is the draw for a latched request that cannot be taken. -/
def checkIdle (wake : Bool) (s : State) : Except Outcome State :=
  if s.idle then
    if s.sic.wakes || s.pendingEvent.isSome then checkEvents (s.setIdle false)
    else if s.anyLatched then
      if wake then checkEvents ((s.setIdle false).setDraws (s.draws + 1))
      else .error (.next (s.setDraws (s.draws + 1)))
    else .error (.next s)
  else checkEvents s

/-- The step after its inputs are latched. -/
def afterLatch (wake : Bool) (s : State) : Except Outcome State :=
  if s.emulationPending then .error (.refused .emulationEvent) else checkIdle wake s

/-- The step after RAISE 1 latched ILAT[1]: with the value `coreReset` of SOFT_RESET the reset state, with `refuse` no meaning
(44_event_instructions.md R282). -/
def requestedReset (lines : BitVec 24) (s : State) : Outcome :=
  match s.plat.softReset with
  | .refuse => .refused .softReset
  | .coreReset => .next (resetState lines s)

/-- Everything of a step before the fetch: either the step ends here, or an instruction runs from the state given. RESET
overrides everything (70_reset_and_hazards.md R442); a double fault leaves no step (60_exceptions.md R394); a reset that RAISE 1
requested comes before everything else (44_event_instructions.md R282; log 10). -/
def prepare (s : State) : Except Outcome State :=
  let e := s.nextInput
  let t := s.setEnv s.env.tail
  if e.reset then .error (.next (resetState e.periph t))
  else if s.doubleFault then .error (.fault .doubleFaultState)
  else if s.ilat.getLsbD 1 then .error (requestedReset e.periph t)
  else if s.sic.badField then .error (.refused .iarField)
  else afterLatch e.wakeDraw (latchInputs e t)

end Sys2Proof.Machine
end

