-- ==== Sys2Proof/Machine/Condition.lean ====
section
/-! DEFINITION. The compares, the conditional jumps and the conditional moves (42_condition_code.md). -/

namespace Sys2Proof.Machine

/-- A compare of data registers: ASTAT, then the next address (42_condition_code.md R221). -/
def finishCompareD (c : Bool) (s : State) : Outcome :=
  .next (advance 2 (s.compareD c))

/-- A compare of pointer registers: CC, then the next address (42_condition_code.md R221). -/
def finishCompareP (c : Bool) (s : State) : Outcome :=
  .next (advance 2 (s.compareP c))

/-- `CC = Rx == Ry` (R222) -/
def execCcEqD (x y : DReg) (s : State) : Outcome :=
  finishCompareD (relEq (s.dreg x) (s.dreg y)) s

/-- `CC = Rx == imm3` (R222) -/
def execCcEqDImm (x : DReg) (imm : BitVec 3) (s : State) : Outcome :=
  finishCompareD (relEq (s.dreg x) (signedImm imm)) s

/-- `CC = Rx < Ry` (R223) -/
def execCcLtD (x y : DReg) (s : State) : Outcome :=
  finishCompareD (relLt (s.dreg x) (s.dreg y)) s

/-- `CC = Rx < imm3` (R223) -/
def execCcLtDImm (x : DReg) (imm : BitVec 3) (s : State) : Outcome :=
  finishCompareD (relLt (s.dreg x) (signedImm imm)) s

/-- `CC = Rx <= Ry` (R224) -/
def execCcLeD (x y : DReg) (s : State) : Outcome :=
  finishCompareD (relLe (s.dreg x) (s.dreg y)) s

/-- `CC = Rx <= imm3` (R224) -/
def execCcLeDImm (x : DReg) (imm : BitVec 3) (s : State) : Outcome :=
  finishCompareD (relLe (s.dreg x) (signedImm imm)) s

/-- `CC = Rx < (IU) Ry` (R225) -/
def execCcLtuD (x y : DReg) (s : State) : Outcome :=
  finishCompareD (relLtu (s.dreg x) (s.dreg y)) s

/-- `CC = Rx < (IU) imm3` (R225) -/
def execCcLtuDImm (x : DReg) (imm : BitVec 3) (s : State) : Outcome :=
  finishCompareD (relLtu (s.dreg x) (unsignedImm imm)) s

/-- `CC = Rx <= (IU) Ry` (R226) -/
def execCcLeuD (x y : DReg) (s : State) : Outcome :=
  finishCompareD (relLeu (s.dreg x) (s.dreg y)) s

/-- `CC = Rx <= (IU) imm3` (R226) -/
def execCcLeuDImm (x : DReg) (imm : BitVec 3) (s : State) : Outcome :=
  finishCompareD (relLeu (s.dreg x) (unsignedImm imm)) s

/-- `CC = Px == Py` (R227) -/
def execCcEqP (x y : PReg) (s : State) : Outcome :=
  finishCompareP (relEq (s.preg x) (s.preg y)) s

/-- `CC = Px == imm3` (R227) -/
def execCcEqPImm (x : PReg) (imm : BitVec 3) (s : State) : Outcome :=
  finishCompareP (relEq (s.preg x) (signedImm imm)) s

/-- `CC = Px < Py` (R228) -/
def execCcLtP (x y : PReg) (s : State) : Outcome :=
  finishCompareP (relLt (s.preg x) (s.preg y)) s

/-- `CC = Px < imm3` (R228) -/
def execCcLtPImm (x : PReg) (imm : BitVec 3) (s : State) : Outcome :=
  finishCompareP (relLt (s.preg x) (signedImm imm)) s

/-- `CC = Px <= Py` (R229) -/
def execCcLeP (x y : PReg) (s : State) : Outcome :=
  finishCompareP (relLe (s.preg x) (s.preg y)) s

/-- `CC = Px <= imm3` (R229) -/
def execCcLePImm (x : PReg) (imm : BitVec 3) (s : State) : Outcome :=
  finishCompareP (relLe (s.preg x) (signedImm imm)) s

/-- `CC = Px < (IU) Py` (R230) -/
def execCcLtuP (x y : PReg) (s : State) : Outcome :=
  finishCompareP (relLtu (s.preg x) (s.preg y)) s

/-- `CC = Px < (IU) imm3` (R230) -/
def execCcLtuPImm (x : PReg) (imm : BitVec 3) (s : State) : Outcome :=
  finishCompareP (relLtu (s.preg x) (unsignedImm imm)) s

/-- `CC = Px <= (IU) Py` (R231) -/
def execCcLeuP (x y : PReg) (s : State) : Outcome :=
  finishCompareP (relLeu (s.preg x) (s.preg y)) s

/-- `CC = Px <= (IU) imm3` (R231) -/
def execCcLeuPImm (x : PReg) (imm : BitVec 3) (s : State) : Outcome :=
  finishCompareP (relLeu (s.preg x) (unsignedImm imm)) s

/-- A conditional jump: the transfer if the condition holds, else the next address (42_condition_code.md R233, R234). The
option (bp) changes the delay alone (R236). -/
def branch (taken : Bool) (off : BitVec 10) (s : State) : Outcome :=
  if taken then takeTransfer (s.pc + offset11 off) s else .next (advance 2 s)

/-- `IF CC JUMP label;` with or without (bp) (R233) -/
def execIfCcJump (_bp : Bool) (off : BitVec 10) (s : State) : Outcome :=
  branch s.cc off s

/-- `IF !CC JUMP label;` with or without (bp) (R234) -/
def execIfNotCcJump (_bp : Bool) (off : BitVec 10) (s : State) : Outcome :=
  branch (!s.cc) off s

/-- A conditional move (42_condition_code.md R238, R239). -/
def moveIf (c : Bool) (dst src : GReg) (s : State) : Outcome :=
  .next (advance 2 (if c then s.setGreg dst (s.greg src) else s))

/-- `IF CC dst = src;` (R238) -/
def execIfCcMove (dst src : GReg) (s : State) : Outcome :=
  moveIf s.cc dst src s

/-- `IF !CC dst = src;` (R239) -/
def execIfNotCcMove (dst src : GReg) (s : State) : Outcome :=
  moveIf (!s.cc) dst src s

end Sys2Proof.Machine
end

