-- ==== Sys2Proof/Machine/EventInstr.lean ====
section
/-! DEFINITION. RAISE, EXCPT, CLI, STI, the returns from events and IDLE (44_event_instructions.md). -/

namespace Sys2Proof.Machine

/-- The events RAISE cannot force (44_event_instructions.md R281). -/
def raiseRefused (n : BitVec 4) : Bool :=
  decide (n = 0) || decide (n = 3) || decide (n = 4)

/-- RAISE 5 records its cause, the other numbers leave SEQSTAT alone (44_event_instructions.md R283). -/
def raiseCause (n : BitVec 4) (s : State) : State :=
  if n = 5 then s.setHwErrCause 0b11000#5 else s

/-- `RAISE n;` (R280); RAISE 1 by the parameter SOFT_RESET (R282) -/
def execRaise (n : BitVec 4) (s : State) : Outcome :=
  supervisorOnly s
    (if raiseRefused n then .refused .raiseOperand
     else if n = 1 ∧ s.plat.softReset = .refuse then .refused .softReset
     else .next (advance 2 (raiseCause n (s.latchEvent n.toNat))))

/-- `EXCPT m;`: a service exception whose return address is the next address (R286) -/
def execExcpt (m : BitVec 4) (s : State) : Outcome :=
  .next (takeException (.forced m) s (advance 2 s))

/-- `CLI Rd;` (R290) -/
def execCli (d : DReg) (s : State) : Outcome :=
  supervisorOnly s (.next (advance 2 ((s.setD d (cecWord s.imask)).writeImask 0)))

/-- `STI Rd;` (R292) -/
def execSti (d : DReg) (s : State) : Outcome :=
  supervisorOnly s (.next (advance 2 (s.writeImask (s.dreg d))))

/-- RTI returns from the levels 1 and 5..15 (44_event_instructions.md R296). -/
def interruptLevel (n : Fin 16) : Bool :=
  decide (n = 1) || decide (5 ≤ n.val)

/-- A return instruction: privileged, refused at a level that is not its own (44_event_instructions.md R294, R302; log 20). -/
def returnInstr (own : Fin 16 → Bool) (also : BitVec 16) (target : Word) (s : State) : Outcome :=
  supervisorOnly s
    (match s.level with
      | some n => if own n then returnFromEvent n also target s else .refused .wrongReturn
      | none => .refused .wrongReturn)

/-- `RTI;`: IPEND[4] is cleared as well (R296) -/
def execRti (s : State) : Outcome :=
  returnInstr interruptLevel 0x0010#16 s.reti s

/-- `RTX;` (R297) -/
def execRtx (s : State) : Outcome :=
  returnInstr (fun n => decide (n = 3)) 0#16 s.retx s

/-- `RTN;` (R298) -/
def execRtn (s : State) : Outcome :=
  returnInstr (fun n => decide (n = 2)) 0#16 s.retn s

/-- `RTE;` (R299) -/
def execRte (s : State) : Outcome :=
  returnInstr (fun n => decide (n = 0)) 0#16 s.rete s

/-- `IDLE;` (R310) -/
def execIdle (s : State) : Outcome :=
  supervisorOnly s (.next (advance 2 (s.setIdle true)))

end Sys2Proof.Machine
end

