-- ==== Sys2Proof/Machine/Jump.lean ====
section
/-! DEFINITION. Jumps, calls and the return from a subroutine (41_jumps_calls.md R190 to R210). -/

namespace Sys2Proof.Machine

/-- A call: RETS takes the address after the call, execution continues at the target (41_jumps_calls.md R200, R210). -/
def callTo (len target : Word) (s : State) : Outcome :=
  takeTransfer target (s.setRets (s.pc + len))

/-- `JUMP.S label;` (R191) -/
def execJumpS (off : BitVec 12) (s : State) : Outcome :=
  takeTransfer (s.pc + offset13 off) s

/-- `JUMP.L label;` (R192) -/
def execJumpL (off : BitVec 24) (s : State) : Outcome :=
  takeTransfer (s.pc + offset25 off) s

/-- `JUMP (Preg);` (R194) -/
def execJumpP (p : PReg) (s : State) : Outcome :=
  takeTransfer (s.preg p) s

/-- `JUMP (PC + Preg);` (R195) -/
def execJumpPcP (p : PReg) (s : State) : Outcome :=
  takeTransfer (s.pc + s.preg p) s

/-- `CALL label;` (R200) -/
def execCall (off : BitVec 24) (s : State) : Outcome :=
  callTo 4 (s.pc + offset25 off) s

/-- `CALL (Preg);` (R201) -/
def execCallP (p : PReg) (s : State) : Outcome :=
  callTo 2 (s.preg p) s

/-- `CALL (PC + Preg);` (R202) -/
def execCallPcP (p : PReg) (s : State) : Outcome :=
  callTo 2 (s.pc + s.preg p) s

/-- `RTS;` (R205) -/
def execRts (s : State) : Outcome :=
  takeTransfer s.rets s

end Sys2Proof.Machine
end

