-- ==== Sys2Proof/Machine/Loop.lean ====
section
/-! DEFINITION. LSETUP (43_loops.md R264 to R266). -/

namespace Sys2Proof.Machine

/-- The three registers LSETUP loads (43_loops.md R264). -/
def loopSetup (k : LoopIdx) (soff : BitVec 4) (p : PReg) (eoff : BitVec 10) (s : State) : State :=
  s.setLoop k ⟨s.preg p, s.pc + loopStart soff, s.pc + loopEnd eoff⟩

/-- `LSETUP (lp_start, lp_end) LCk = Preg;` (R264). Degenerate offsets are refused (R266; log 19), and so is the active end of
the unit it loads, unless the platform leaves open what that unit does (R262; log 17). -/
def execLsetup (k : LoopIdx) (soff : BitVec 4) (p : PReg) (eoff : BitVec 10) (s : State) : Outcome :=
  if lsetupAdmitted soff eoff then
    if loopWriteRefused k s (loopSetup k soff p eoff s) then .refused .loopEndWrite
    else .next (advanceWritten 4 k s (loopSetup k soff p eoff s))
  else .refused .lsetupOffsets

end Sys2Proof.Machine
end

