-- ==== Sys2Proof/Machine/Stack.lean ====
section
/-! DEFINITION. Push, pop and register moves (40_stack_and_moves.md). -/

namespace Sys2Proof.Machine

/-- The protected-register check of a push, pop or move (40_stack_and_moves.md R160, R163, R170). -/
def checkRegister (r : Reg) (s : State) : Except Stop Unit :=
  if s.mode = .user ∧ supervisorReg r then .error (.exc .illegalSupervisorResource) else .ok ()

/-- SYSCFG may not be given a value with bit 0 or bit 2 set (10_state.md R32; 93 U15; log 18). -/
def checkSyscfg (r : Reg) (v : Word) : Except Stop Unit :=
  if r = .syscfg ∧ (v.getLsbD 0 || v.getLsbD 2) then .error (.refusal .syscfgMode) else .ok ()

/-- The platform lets a pop or a move write the register: CYCLES and CYCLES2 it may refuse (40_stack_and_moves.md R163, R170;
10_state.md R21, R34; log 13). -/
def State.admitsWrite (s : State) (r : Reg) : Bool :=
  decide (s.plat.counterWrite = .noEffect) || (decide (r ≠ .cycles) && decide (r ≠ .cycles2))

/-- The value a push stores: the register's, but for SP, of which the spec does not say what is stored (40_stack_and_moves.md
R160; log 12). -/
def pushValue (r : Reg) (s : State) : Word :=
  if r = .g (.p .sp) then Config.freeWord s.draws else s.reg r

/-- The state after the value to push was read; a draw is counted. -/
def afterPushRead (r : Reg) (s : State) : State :=
  if r = .g (.p .sp) then s.setDraws (s.draws + 1) else s.afterRead r

/-- The push step: SP is decremented by 4 and the value stored at the new SP (40_stack_and_moves.md R160, R168). -/
def pushWord (v : Word) (s : State) : Except Stop State :=
  (memWrite (s.sp - 4) v s).map (fun t => t.setSp (s.sp - 4))

/-- The pop step: the word at SP, and the state with SP incremented by 4 (40_stack_and_moves.md R163, R168). -/
def popWord (s : State) : Except Stop (Word × State) :=
  (memRead s.sp s).map (fun v => (v, s.setSp (s.sp + 4)))

/-- The side effect of pushing RETI: IPEND[4] is cleared (40_stack_and_moves.md R161, R162). -/
def afterPush (r : Reg) (s : State) : State :=
  if r = .reti then s.setIpend (s.ipend &&& 0xFFEF#16) else s

/-- The side effect of popping RETI: IPEND[4] is set (40_stack_and_moves.md R164, R162). -/
def afterPop (r : Reg) (s : State) : State :=
  if r = .reti then s.setIpend (s.ipend ||| 0x0010#16) else s

/-- `[--SP] = reg;` (R160). -/
def runPush (r : Reg) (s : State) : Except Stop State := do
  checkRegister r s
  let t ← pushWord (pushValue r s) (afterPushRead r s)
  return advance 2 (afterPush r t)

/-- `reg = [SP++];` (R163). -/
def runPop (r : Reg) (s : State) : Except Stop State := do
  if popAdmitted r && s.admitsWrite r then
    checkRegister r s
    let (v, t) ← popWord s
    checkSyscfg r v
    checkLoopWrite r s (t.setReg r v)
    return finishWrite r s (afterPop r (t.setReg r v))
  else .error (.refusal .popDestination)

/-- The registers of a multiple push, each by one push step (R166). -/
def pushAll : List GReg → State → Except Stop State
  | [], s => .ok s
  | r :: rs, s => do
    let t ← pushWord (s.greg r) s
    pushAll rs t

/-- The registers of a multiple pop, each by one pop step (R167). -/
def popAll : List GReg → State → Except Stop State
  | [], s => .ok s
  | r :: rs, s => do
    let (v, t) ← popWord s
    popAll rs (t.setGreg r v)

/-- `[--SP] = (R7:x, P5:y);` (R166). -/
def runPushMultiple (x : Option DReg) (y : Option (Fin 6)) (s : State) : Except Stop State :=
  if x.isSome || y.isSome then (pushAll (multipleRegs x y) s).map (advance 2) else .error (.refusal .emptyMultiple)

/-- `(R7:x, P5:y) = [SP++];`, the registers of the push in reverse (R167). -/
def runPopMultiple (x : Option DReg) (y : Option (Fin 6)) (s : State) : Except Stop State :=
  if x.isSome || y.isSome then (popAll (multipleRegs x y).reverse s).map (advance 2) else .error (.refusal .emptyMultiple)

/-- `dst = src;` (R170). -/
def runMove (dst src : Reg) (s : State) : Except Stop State := do
  if moveAdmitted dst src && s.admitsWrite dst then
    checkRegister dst s
    checkRegister src s
    checkSyscfg dst (s.reg src)
    checkLoopWrite dst s ((s.afterRead src).setReg dst (s.reg src))
    return finishWrite dst s ((s.afterRead src).setReg dst (s.reg src))
  else .error (.refusal .moveForm)

/-- R160 -/
def execPush (r : Reg) (s : State) : Outcome :=
  outcome s (runPush r s)

/-- R163 -/
def execPop (r : Reg) (s : State) : Outcome :=
  outcome s (runPop r s)

/-- R166 -/
def execPushMultiple (x : Option DReg) (y : Option (Fin 6)) (s : State) : Outcome :=
  outcome s (runPushMultiple x y s)

/-- R167 -/
def execPopMultiple (x : Option DReg) (y : Option (Fin 6)) (s : State) : Outcome :=
  outcome s (runPopMultiple x y s)

/-- R170 -/
def execRegMove (dst src : Reg) (s : State) : Outcome :=
  outcome s (runMove dst src s)

end Sys2Proof.Machine
end

