-- ==== Sys2Proof/Machine/Dispatch.lean ====
section
/-! DEFINITION. The dispatch of an instruction to its meaning: one arm per constructor of Instr. -/

namespace Sys2Proof.Machine

def exec (i : Instr) (s : State) : Host.Outcome State Fault Refusal :=
  match i with
  | .rts => Sys2Proof.Machine.execRts s  -- RTS;
  | .rti => Sys2Proof.Machine.execRti s  -- RTI;
  | .rtx => Sys2Proof.Machine.execRtx s  -- RTX;
  | .rtn => Sys2Proof.Machine.execRtn s  -- RTN;
  | .rte => Sys2Proof.Machine.execRte s  -- RTE;
  | .idle => Sys2Proof.Machine.execIdle s  -- IDLE;
  | .cli d => Sys2Proof.Machine.execCli d s  -- CLI Rd;
  | .sti d => Sys2Proof.Machine.execSti d s  -- STI Rd;
  | .jumpP p => Sys2Proof.Machine.execJumpP p s  -- JUMP (Preg);
  | .callP p => Sys2Proof.Machine.execCallP p s  -- CALL (Preg);
  | .callPcP p => Sys2Proof.Machine.execCallPcP p s  -- CALL (PC + Preg);
  | .jumpPcP p => Sys2Proof.Machine.execJumpPcP p s  -- JUMP (PC + Preg);
  | .raise n => Sys2Proof.Machine.execRaise n s  -- RAISE n;
  | .excpt m => Sys2Proof.Machine.execExcpt m s  -- EXCPT m;
  | .ifCcJump bp off => Sys2Proof.Machine.execIfCcJump bp off s  -- IF CC JUMP label; / IF CC JUMP label (bp);
  | .ifNotCcJump bp off => Sys2Proof.Machine.execIfNotCcJump bp off s  -- IF !CC JUMP label; / IF !CC JUMP label (bp);
  | .jumpS off => Sys2Proof.Machine.execJumpS off s  -- JUMP.S label;
  | .jumpL off => Sys2Proof.Machine.execJumpL off s  -- JUMP.L label;
  | .call off => Sys2Proof.Machine.execCall off s  -- CALL label;
  | .lsetup k soff p eoff => Sys2Proof.Machine.execLsetup k soff p eoff s  -- LSETUP (lp_start, lp_end) LCc = Preg;
  | .push r => Sys2Proof.Machine.execPush r s  -- [--SP] = reg;
  | .pop r => Sys2Proof.Machine.execPop r s  -- reg = [SP++];
  | .pushMultiple x y => Sys2Proof.Machine.execPushMultiple x y s  -- [--SP] = (R7:x, P5:y); / [--SP] = (R7:x); / [--SP] = (P5:y);
  | .popMultiple x y => Sys2Proof.Machine.execPopMultiple x y s  -- (R7:x, P5:y) = [SP++]; / (R7:x) = [SP++]; / (P5:y) = [SP++];
  | .regMove dst src => Sys2Proof.Machine.execRegMove dst src s  -- dst = src;
  | .ifCcMove dst src => Sys2Proof.Machine.execIfCcMove dst src s  -- IF CC dst = src;
  | .ifNotCcMove dst src => Sys2Proof.Machine.execIfNotCcMove dst src s  -- IF !CC dst = src;
  | .ccEqD x y => Sys2Proof.Machine.execCcEqD x y s  -- CC = Rx == Ry;
  | .ccEqDImm x imm => Sys2Proof.Machine.execCcEqDImm x imm s  -- CC = Rx == imm3;
  | .ccLtD x y => Sys2Proof.Machine.execCcLtD x y s  -- CC = Rx < Ry;
  | .ccLtDImm x imm => Sys2Proof.Machine.execCcLtDImm x imm s  -- CC = Rx < imm3;
  | .ccLeD x y => Sys2Proof.Machine.execCcLeD x y s  -- CC = Rx <= Ry;
  | .ccLeDImm x imm => Sys2Proof.Machine.execCcLeDImm x imm s  -- CC = Rx <= imm3;
  | .ccLtuD x y => Sys2Proof.Machine.execCcLtuD x y s  -- CC = Rx < Ry (IU);
  | .ccLtuDImm x imm => Sys2Proof.Machine.execCcLtuDImm x imm s  -- CC = Rx < uimm3 (IU);
  | .ccLeuD x y => Sys2Proof.Machine.execCcLeuD x y s  -- CC = Rx <= Ry (IU);
  | .ccLeuDImm x imm => Sys2Proof.Machine.execCcLeuDImm x imm s  -- CC = Rx <= uimm3 (IU);
  | .ccEqP x y => Sys2Proof.Machine.execCcEqP x y s  -- CC = Px == Py;
  | .ccEqPImm x imm => Sys2Proof.Machine.execCcEqPImm x imm s  -- CC = Px == imm3;
  | .ccLtP x y => Sys2Proof.Machine.execCcLtP x y s  -- CC = Px < Py;
  | .ccLtPImm x imm => Sys2Proof.Machine.execCcLtPImm x imm s  -- CC = Px < imm3;
  | .ccLeP x y => Sys2Proof.Machine.execCcLeP x y s  -- CC = Px <= Py;
  | .ccLePImm x imm => Sys2Proof.Machine.execCcLePImm x imm s  -- CC = Px <= imm3;
  | .ccLtuP x y => Sys2Proof.Machine.execCcLtuP x y s  -- CC = Px < Py (IU);
  | .ccLtuPImm x imm => Sys2Proof.Machine.execCcLtuPImm x imm s  -- CC = Px < uimm3 (IU);
  | .ccLeuP x y => Sys2Proof.Machine.execCcLeuP x y s  -- CC = Px <= Py (IU);
  | .ccLeuPImm x imm => Sys2Proof.Machine.execCcLeuPImm x imm s  -- CC = Px <= uimm3 (IU);

end Sys2Proof.Machine
end

