-- ==== Sys2Proof/WellFormed.lean ====
section
/-! DEFINITION. The statements the spec admits: the checks that the types of Syntax.lean do not make. -/

namespace Sys2Proof

/-- The statement is one the spec admits: a pop names an admitted destination (R163), a multiple push or pop has a register
(R129), a move names an admitted pair (R170) and LSETUP admitted offsets (R266). Every other statement is admitted with
every value of its operands; the numbers RAISE refuses are refused by its meaning, after its privilege check (R280). -/
def Instr.wellFormed : Instr → Bool
  | .pop r => Machine.popAdmitted r
  | .pushMultiple x y => x.isSome || y.isSome
  | .popMultiple x y => x.isSome || y.isSome
  | .regMove dst src => Machine.moveAdmitted dst src
  | .lsetup _ soff _ eoff => Machine.lsetupAdmitted soff eoff
  | .rts | .rti | .rtx | .rtn | .rte | .idle => true
  | .cli _ | .sti _ | .jumpP _ | .callP _ | .callPcP _ | .jumpPcP _ | .raise _ | .excpt _ => true
  | .ifCcJump _ _ | .ifNotCcJump _ _ | .jumpS _ | .jumpL _ | .call _ | .push _ => true
  | .ifCcMove _ _ | .ifNotCcMove _ _ => true
  | .ccEqD _ _ | .ccEqDImm _ _ | .ccLtD _ _ | .ccLtDImm _ _ | .ccLeD _ _ | .ccLeDImm _ _ => true
  | .ccLtuD _ _ | .ccLtuDImm _ _ | .ccLeuD _ _ | .ccLeuDImm _ _ => true
  | .ccEqP _ _ | .ccEqPImm _ _ | .ccLtP _ _ | .ccLtPImm _ _ | .ccLeP _ _ | .ccLePImm _ _ => true
  | .ccLtuP _ _ | .ccLtuPImm _ _ | .ccLeuP _ _ | .ccLeuPImm _ _ => true

end Sys2Proof
end

