-- ==== Sys2Proof/Decode.lean ====
section
/-! DEFINITION. The decoder and the encoder, both written from the formats of 30_encoding.md (rules R122 to R133). The spec
marks every bit pattern as general knowledge; the meanings do not depend on them (00_scope.md R6; log 1). -/

namespace Sys2Proof

/-- Why bytes are no statement of the model (30_encoding.md R142). -/
inductive DecodeError where
  /-- fewer bytes than the statement's length -/
  | tooShort
  /-- the first slot of a 64-bit multi-issue group (R122; out of scope but for its length) -/
  | multiIssue (w0 : Half)
  /-- a half-word pattern the spec does not list -/
  | unlisted (w0 : Half)
  deriving DecidableEq, Repr

/-! ## Register numbers (R132) -/

/-- The pointer register with a number: P0..P5, 6 = SP, 7 = FP (10_state.md R23). -/
def pregOf (c : BitVec 3) : PReg :=
  if h : c.toNat < 6 then .p ⟨c.toNat, h⟩ else if c.toNat = 6 then .sp else .fp

/-- The number of a pointer register. -/
def pregCode : PReg → BitVec 3
  | .p n => BitVec.ofNat 3 n.val
  | .sp => 6#3
  | .fp => 7#3

/-- The data register with a number. -/
def dregOf (c : BitVec 3) : DReg :=
  c.toFin

/-- The number of a data register. -/
def dregCode (r : DReg) : BitVec 3 :=
  BitVec.ofFin r

/-- The register a file bit and a number select: 0 the data file, 1 the pointer file (R131). -/
def gregOf (file : Bool) (c : BitVec 3) : GReg :=
  if file then .p (pregOf c) else .d (dregOf c)

/-- The file bit of a register. -/
def gregFile : GReg → Bool
  | .d _ => false
  | .p _ => true

/-- The number of a register in its file. -/
def gregCode : GReg → BitVec 3
  | .d r => dregCode r
  | .p r => pregCode r

/-- The register of a group and number; none for the pairs outside the spec (R132). -/
def regOf (grp reg : BitVec 3) : Option Reg :=
  match grp.toNat, reg.toNat with
  | 0, _ => some (.g (.d (dregOf reg)))
  | 1, _ => some (.g (.p (pregOf reg)))
  | 4, 6 => some .astat
  | 4, 7 => some .rets
  | 6, 0 => some (.lc .l0)
  | 6, 1 => some (.lt .l0)
  | 6, 2 => some (.lb .l0)
  | 6, 3 => some (.lc .l1)
  | 6, 4 => some (.lt .l1)
  | 6, 5 => some (.lb .l1)
  | 6, 6 => some .cycles
  | 6, 7 => some .cycles2
  | 7, 0 => some .usp
  | 7, 1 => some .seqstat
  | 7, 2 => some .syscfg
  | 7, 3 => some .reti
  | 7, 4 => some .retx
  | 7, 5 => some .retn
  | 7, 6 => some .rete
  | _, _ => none

/-- The group and number of a register (R132). -/
def regCode : Reg → BitVec 3 × BitVec 3
  | .g (.d r) => (0#3, dregCode r)
  | .g (.p r) => (1#3, pregCode r)
  | .astat => (4#3, 6#3)
  | .rets => (4#3, 7#3)
  | .lc .l0 => (6#3, 0#3)
  | .lt .l0 => (6#3, 1#3)
  | .lb .l0 => (6#3, 2#3)
  | .lc .l1 => (6#3, 3#3)
  | .lt .l1 => (6#3, 4#3)
  | .lb .l1 => (6#3, 5#3)
  | .cycles => (6#3, 6#3)
  | .cycles2 => (6#3, 7#3)
  | .usp => (7#3, 0#3)
  | .seqstat => (7#3, 1#3)
  | .syscfg => (7#3, 2#3)
  | .reti => (7#3, 3#3)
  | .retx => (7#3, 4#3)
  | .retn => (7#3, 5#3)
  | .rete => (7#3, 6#3)

/-- The loop unit a bit selects (R127). -/
def loopOf (c : Bool) : LoopIdx :=
  if c then .l1 else .l0

/-- The bit of a loop unit. -/
def loopBit : LoopIdx → Bool
  | .l0 => false
  | .l1 => true

/-! ## The formats -/

/-- Format ProgCtrl (R123), for a half-word whose upper byte is 0. -/
def decodeProgCtrl (w : Half) : Option Instr :=
  let reg := w.extractLsb' 0 3
  let low := w.extractLsb' 0 4
  match (w.extractLsb' 4 4).toNat, w.getLsbD 3 with
  | 1, _ =>
    match low.toNat with
    | 0 => some .rts
    | 1 => some .rti
    | 2 => some .rtx
    | 3 => some .rtn
    | 4 => some .rte
    | _ => none
  | 2, _ => if low.toNat = 0 then some .idle else none
  | 3, false => some (.cli (dregOf reg))
  | 4, false => some (.sti (dregOf reg))
  | 5, false => some (.jumpP (pregOf reg))
  | 6, false => some (.callP (pregOf reg))
  | 7, false => some (.callPcP (pregOf reg))
  | 8, false => some (.jumpPcP (pregOf reg))
  | 9, _ => some (.raise low)
  | 10, _ => some (.excpt low)
  | _, _ => none

/-- Format PushPopReg (R128), for a half-word whose upper byte is 1. -/
def decodePushPop (w : Half) : Option Instr :=
  if w.getLsbD 7 then none
  else (regOf (w.extractLsb' 3 3) (w.extractLsb' 0 3)).map (if w.getLsbD 6 then Instr.push else Instr.pop)

/-- The data list of format PushPopMultiple: a missing list has the field 0 (R129). -/
def multipleD (present : Bool) (c : BitVec 3) : Option (Option DReg) :=
  if present then some (some (dregOf c)) else if c = 0#3 then some none else none

/-- The pointer list of format PushPopMultiple: its lowest register is P0..P5, a missing list has the field 0 (R129). -/
def multipleP (present : Bool) (c : BitVec 3) : Option (Option (Fin 6)) :=
  if present then (if h : c.toNat < 6 then some (some ⟨c.toNat, h⟩) else none)
  else if c = 0#3 then some none else none

/-- Format PushPopMultiple (R129), for a half-word whose upper seven bits are 0000010. -/
def decodeMultiple (w : Half) : Option Instr :=
  if w.getLsbD 8 || w.getLsbD 7 then
    match multipleD (w.getLsbD 8) (w.extractLsb' 3 3), multipleP (w.getLsbD 7) (w.extractLsb' 0 3) with
    | some x, some y => some (if w.getLsbD 6 then .pushMultiple x y else .popMultiple x y)
    | _, _ => none
  else none

/-- Format ccMV (R131), for a half-word whose upper seven bits are 0000011. -/
def decodeCcMove (w : Half) : Instr :=
  let dst := gregOf (w.getLsbD 7) (w.extractLsb' 3 3)
  let src := gregOf (w.getLsbD 6) (w.extractLsb' 0 3)
  if w.getLsbD 8 then .ifCcMove dst src else .ifNotCcMove dst src

/-- Format CCflag (R133), for a half-word whose upper five bits are 00001: I is bit 10, opc bits 9..7, G bit 6. -/
def decodeCompare (w : Half) : Option Instr :=
  let y := w.extractLsb' 3 3
  let x := w.extractLsb' 0 3
  match (w.extractLsb' 7 3).toNat, w.getLsbD 6, w.getLsbD 10 with
  | 0, false, false => some (.ccEqD (dregOf x) (dregOf y))
  | 0, false, true => some (.ccEqDImm (dregOf x) y)
  | 1, false, false => some (.ccLtD (dregOf x) (dregOf y))
  | 1, false, true => some (.ccLtDImm (dregOf x) y)
  | 2, false, false => some (.ccLeD (dregOf x) (dregOf y))
  | 2, false, true => some (.ccLeDImm (dregOf x) y)
  | 3, false, false => some (.ccLtuD (dregOf x) (dregOf y))
  | 3, false, true => some (.ccLtuDImm (dregOf x) y)
  | 4, false, false => some (.ccLeuD (dregOf x) (dregOf y))
  | 4, false, true => some (.ccLeuDImm (dregOf x) y)
  | 0, true, false => some (.ccEqP (pregOf x) (pregOf y))
  | 0, true, true => some (.ccEqPImm (pregOf x) y)
  | 1, true, false => some (.ccLtP (pregOf x) (pregOf y))
  | 1, true, true => some (.ccLtPImm (pregOf x) y)
  | 2, true, false => some (.ccLeP (pregOf x) (pregOf y))
  | 2, true, true => some (.ccLePImm (pregOf x) y)
  | 3, true, false => some (.ccLtuP (pregOf x) (pregOf y))
  | 3, true, true => some (.ccLtuPImm (pregOf x) y)
  | 4, true, false => some (.ccLeuP (pregOf x) (pregOf y))
  | 4, true, true => some (.ccLeuPImm (pregOf x) y)
  | _, _, _ => none

/-- Format REGMV (R130): destination group and source group, then destination and source. -/
def decodeMove (w : Half) : Option Instr :=
  match regOf (w.extractLsb' 9 3) (w.extractLsb' 3 3), regOf (w.extractLsb' 6 3) (w.extractLsb' 0 3) with
  | some dst, some src => some (.regMove dst src)
  | _, _ => none

/-- A 16-bit statement (the map of R140). -/
def decode16 (w : Half) : Option Instr :=
  match (w.extractLsb' 12 4).toNat, (w.extractLsb' 8 4).toNat with
  | 0, 0 => decodeProgCtrl w
  | 0, 1 => decodePushPop w
  | 0, 4 | 0, 5 => decodeMultiple w
  | 0, 6 | 0, 7 => some (decodeCcMove w)
  | 0, 8 | 0, 9 | 0, 10 | 0, 11 | 0, 12 | 0, 13 | 0, 14 | 0, 15 => decodeCompare w
  | 1, _ =>
    some (if w.getLsbD 11 then .ifCcJump (w.getLsbD 10) (w.extractLsb' 0 10)
      else .ifNotCcJump (w.getLsbD 10) (w.extractLsb' 0 10))
  | 2, _ => some (.jumpS (w.extractLsb' 0 12))
  | 3, _ => decodeMove w
  | _, _ => none

/-- A 32-bit statement: formats CALLa (R126) and LoopSetup with rop = 1 (R127). -/
def decode32 (w0 w1 : Half) : Option Instr :=
  match (w0.extractLsb' 8 8).toNat with
  | 0xE2 => some (.jumpL (w0.extractLsb' 0 8 ++ w1))
  | 0xE3 => some (.call (w0.extractLsb' 0 8 ++ w1))
  | 0xE0 =>
    if (w0.extractLsb' 5 3).toNat = 5 && (w1.extractLsb' 10 2).toNat = 0 && !w1.getLsbD 15 then
      some (.lsetup (loopOf (w0.getLsbD 4)) (w0.extractLsb' 0 4) (pregOf (w1.extractLsb' 12 3)) (w1.extractLsb' 0 10))
    else none
  | _ => none

/-- The statement is longer than 16 bits (R122). -/
def isWide (w0 : Half) : Bool :=
  w0.getLsbD 15 && w0.getLsbD 14

/-- The statement is the first slot of a 64-bit multi-issue group: bit M = 11 set, and not the pattern 0xE800 under 0xE800
(R122). -/
def isMultiIssue (w0 : Half) : Bool :=
  isWide w0 && w0.getLsbD 11 && !w0.getLsbD 13

/-- The length of a statement in bytes, from its first half-word: 2, 4, or 8 for a multi-issue group (R121, R122). -/
def statementLength (w0 : Half) : Nat :=
  if isMultiIssue w0 then 8 else if isWide w0 then 4 else 2

/-- A half-word from its two bytes, the lower address first (20_memory.md R84). -/
def halfOf (b0 b1 : Byte) : Half :=
  b1 ++ b0

/-- The statement that bytes begin with: all its bytes must be there, as many as its first half-word says (30_encoding.md
R122, R142). -/
def decode : List Byte → Except DecodeError Instr
  | b0 :: b1 :: rest =>
    let w0 := halfOf b0 b1
    if (b0 :: b1 :: rest).length < statementLength w0 then .error .tooShort
    else if isMultiIssue w0 then .error (.multiIssue w0)
    else if isWide w0 then
      match rest with
      | b2 :: b3 :: _ =>
        match decode32 w0 (halfOf b2 b3) with
        | some i => .ok i
        | none => .error (.unlisted w0)
      | _ => .error .tooShort
    else
      match decode16 w0 with
      | some i => .ok i
      | none => .error (.unlisted w0)
  | _ => .error .tooShort

/-- A half-word as it is stored: the low byte at the lower address (20_memory.md R84). -/
def halfBytes (w : Half) : List Byte :=
  [w.extractLsb' 0 8, w.extractLsb' 8 8]

/-- The first half-word of a word of spec/opcode_table.json: the table writes a 32-bit statement as `w0 * 65536 + w1`
(30_encoding.md, section 2), a 16-bit one as its half-word (log 1). -/
def tableFirst (nbits w : Nat) : Half :=
  if nbits ≤ 16 then BitVec.ofNat 16 w else BitVec.ofNat 16 (w / 65536)

/-- The bytes of the statement of a word of spec/opcode_table.json, as many as its first half-word says; the bits after the
word are 0 (log 1). -/
def tableWordBytes (nbits w : Nat) : List Byte :=
  (halfBytes (tableFirst nbits w) ++ (if nbits ≤ 16 then halfBytes 0#16 else halfBytes (BitVec.ofNat 16 w)) ++
    halfBytes 0#16 ++ halfBytes 0#16).take (statementLength (tableFirst nbits w))

/-- The statement the decoder reads from a word of spec/opcode_table.json. -/
def decodeTableWord (nbits w : Nat) : Option Instr :=
  match decode (tableWordBytes nbits w) with
  | .ok i => some i
  | .error _ => none

/-! ## The encoder -/

/-- Format ProgCtrl (R123). -/
def progCtrl (func low : BitVec 4) : Half :=
  0#8 ++ func ++ low

/-- Format PushPopReg (R128), `w` the direction: true for a push. -/
def pushPopWord (w : Bool) (r : Reg) : Half :=
  0b000000010#9 ++ BitVec.ofBool w ++ (regCode r).1 ++ (regCode r).2

/-- Format PushPopMultiple (R129), `w` the direction: true for a push. -/
def multipleWord (w : Bool) (x : Option DReg) (y : Option (Fin 6)) : Half :=
  0b0000010#7 ++ BitVec.ofBool x.isSome ++ BitVec.ofBool y.isSome ++ BitVec.ofBool w ++
    (match x with | some r => dregCode r | none => 0#3) ++ (match y with | some j => BitVec.ofNat 3 j.val | none => 0#3)

/-- Format ccMV (R131), `t` the sense. -/
def ccMoveWord (t : Bool) (dst src : GReg) : Half :=
  0b0000011#7 ++ BitVec.ofBool t ++ BitVec.ofBool (gregFile dst) ++ BitVec.ofBool (gregFile src) ++ gregCode dst ++
    gregCode src

/-- Format CCflag (R133): `imm` the bit I, `opc` the relation, `ptr` the bit G. -/
def compareWord (imm : Bool) (opc : BitVec 3) (ptr : Bool) (y x : BitVec 3) : Half :=
  0b00001#5 ++ BitVec.ofBool imm ++ opc ++ BitVec.ofBool ptr ++ y ++ x

/-- Format BRCC (R124), `t` the sense. -/
def branchWord (t bp : Bool) (off : BitVec 10) : Half :=
  0b0001#4 ++ BitVec.ofBool t ++ BitVec.ofBool bp ++ off

/-- Format CALLa (R126), `s` the bit S. -/
def callaWords (s : Bool) (off : BitVec 24) : List Half :=
  [0b1110001#7 ++ BitVec.ofBool s ++ off.extractLsb' 16 8, off.extractLsb' 0 16]

/-- The half-words of a statement, the first at the lower address. -/
def encode : Instr → List Half
  | .rts => [progCtrl 1 0]
  | .rti => [progCtrl 1 1]
  | .rtx => [progCtrl 1 2]
  | .rtn => [progCtrl 1 3]
  | .rte => [progCtrl 1 4]
  | .idle => [progCtrl 2 0]
  | .cli d => [progCtrl 3 (0#1 ++ dregCode d)]
  | .sti d => [progCtrl 4 (0#1 ++ dregCode d)]
  | .jumpP p => [progCtrl 5 (0#1 ++ pregCode p)]
  | .callP p => [progCtrl 6 (0#1 ++ pregCode p)]
  | .callPcP p => [progCtrl 7 (0#1 ++ pregCode p)]
  | .jumpPcP p => [progCtrl 8 (0#1 ++ pregCode p)]
  | .raise n => [progCtrl 9 n]
  | .excpt m => [progCtrl 10 m]
  | .ifCcJump bp off => [branchWord true bp off]
  | .ifNotCcJump bp off => [branchWord false bp off]
  | .jumpS off => [0b0010#4 ++ off]
  | .jumpL off => callaWords false off
  | .call off => callaWords true off
  | .lsetup k soff p eoff =>
    [0b111000001#9 ++ 0b01#2 ++ BitVec.ofBool (loopBit k) ++ soff, 0#1 ++ pregCode p ++ 0b00#2 ++ eoff]
  | .push r => [pushPopWord true r]
  | .pop r => [pushPopWord false r]
  | .pushMultiple x y => [multipleWord true x y]
  | .popMultiple x y => [multipleWord false x y]
  | .regMove dst src => [0b0011#4 ++ (regCode dst).1 ++ (regCode src).1 ++ (regCode dst).2 ++ (regCode src).2]
  | .ifCcMove dst src => [ccMoveWord true dst src]
  | .ifNotCcMove dst src => [ccMoveWord false dst src]
  | .ccEqD x y => [compareWord false 0 false (dregCode y) (dregCode x)]
  | .ccEqDImm x imm => [compareWord true 0 false imm (dregCode x)]
  | .ccLtD x y => [compareWord false 1 false (dregCode y) (dregCode x)]
  | .ccLtDImm x imm => [compareWord true 1 false imm (dregCode x)]
  | .ccLeD x y => [compareWord false 2 false (dregCode y) (dregCode x)]
  | .ccLeDImm x imm => [compareWord true 2 false imm (dregCode x)]
  | .ccLtuD x y => [compareWord false 3 false (dregCode y) (dregCode x)]
  | .ccLtuDImm x imm => [compareWord true 3 false imm (dregCode x)]
  | .ccLeuD x y => [compareWord false 4 false (dregCode y) (dregCode x)]
  | .ccLeuDImm x imm => [compareWord true 4 false imm (dregCode x)]
  | .ccEqP x y => [compareWord false 0 true (pregCode y) (pregCode x)]
  | .ccEqPImm x imm => [compareWord true 0 true imm (pregCode x)]
  | .ccLtP x y => [compareWord false 1 true (pregCode y) (pregCode x)]
  | .ccLtPImm x imm => [compareWord true 1 true imm (pregCode x)]
  | .ccLeP x y => [compareWord false 2 true (pregCode y) (pregCode x)]
  | .ccLePImm x imm => [compareWord true 2 true imm (pregCode x)]
  | .ccLtuP x y => [compareWord false 3 true (pregCode y) (pregCode x)]
  | .ccLtuPImm x imm => [compareWord true 3 true imm (pregCode x)]
  | .ccLeuP x y => [compareWord false 4 true (pregCode y) (pregCode x)]
  | .ccLeuPImm x imm => [compareWord true 4 true imm (pregCode x)]

/-- The bytes of a statement as they are stored (20_memory.md R84). -/
def encodeBytes (i : Instr) : List Byte :=
  (encode i).flatMap halfBytes

end Sys2Proof
end

