-- ==== Sys2Proof/Machine/Fetch.lean ====
section
/-! DEFINITION. The instruction fetch (20_memory.md R90; 30_encoding.md R142). -/

namespace Sys2Proof.Machine

/-- The length of a statement of PROGRAM is the one its first half-word says (30_encoding.md R121, R122). -/
def Placed.wholeStatement (e : Placed) : Bool :=
  match e.bytes with
  | b0 :: b1 :: _ => decide (e.bytes.length = statementLength (halfOf b0 b1))
  | _ => false

/-- The canonical form of PROGRAM: addresses even, below 2^32 and strictly rising, statements whole, no two overlapping
(00_scope.md R6; 20_memory.md R90). -/
def Program.wf (p : Program) : Bool :=
  p.all (fun e => decide (e.address < 0x100000000) && decide (e.address % 2 = 0) && e.wholeStatement) &&
    decide (p.Pairwise (fun e f => e.address < f.address ∧ e.apart f = true))

/-- The instruction of a statement's bytes: too few of them define no statement, which is stuck, and an encoding the spec does
not list is refused (20_memory.md R90; 30_encoding.md R142). -/
def decodePlaced (bs : List Byte) : Except Outcome Instr :=
  match decode bs with
  | .ok i => .ok i
  | .error .tooShort => .error (.fault .unmappedFetch)
  | .error (.multiIssue w) => .error (.refused (.multiIssue w))
  | .error (.unlisted w) => .error (.refused (.unlistedEncoding w))

/-- The instruction at pc: an odd pc raises 0x2A with RETX the odd address (41_jumps_calls.md R208), an address at which
PROGRAM places no statement is stuck, the middle of a longer one included (20_memory.md R90; 00_scope.md R6). -/
def fetch (s : State) : Except Outcome Instr :=
  if s.pc.getLsbD 0 then .error (.next (takeException .fetchMisaligned s s))
  else
    match s.plat.program.statementAt s.pc.toNat with
    | some bs => decodePlaced bs
    | none => .error (.fault .unmappedFetch)

end Sys2Proof.Machine
end

