-- ==== Sys2Proof/Machine/Step.lean ====
section
/-! DEFINITION. One step of the machine (00_scope.md R11) and the place of the next instruction. -/

namespace Sys2Proof.Machine

/-- One machine step: inputs, idle, events; then the instruction at pc is fetched and executed (00_scope.md R11). -/
def step (s : State) : Host.Outcome State Fault Refusal :=
  match prepare s with
  | .error o => o
  | .ok t =>
    match fetch t with
    | .error o => o
    | .ok i => exec i t

/-- The state with the statement of a word of spec/opcode_table.json placed in PROGRAM at pc (log 1, log 4). -/
def State.withFetchWord (s : State) (nbits w : Nat) : State :=
  { s with plat := { s.plat with program := s.plat.program.place ⟨s.pc.toNat, tableWordBytes nbits w⟩ } }

end Sys2Proof.Machine
end

