-- ==== Sys2Proof/Safety.lean ====
section
/-! DEFINITION. The terms the claims use: the invariant of the machine, what an instruction keeps, how an instruction ends,
and what a safe step is. -/

namespace Sys2Proof.Machine

/-! ## The invariant -/

/-- EXCAUSE holds a code of Table 4-11 that the model can record: an EXCPT field, 0x23, 0x24, 0x25, 0x2A or 0x2E
(60_exceptions.md R385). -/
def legalExcause (w : Word) : Bool :=
  decide (w.extractLsb' 0 6 ∈ ([0x00, 0x01, 0x02, 0x03, 0x04, 0x05, 0x06, 0x07, 0x08, 0x09, 0x0A, 0x0B, 0x0C, 0x0D, 0x0E,
    0x0F, 0x23, 0x24, 0x25, 0x2A, 0x2E] : List (BitVec 6)))

/-- HWERRCAUSE is 0, as reset leaves it, or a code of Table 4-13 that is not reserved (60_exceptions.md R411). -/
def legalHwErrCause (w : Word) : Bool :=
  decide (w.extractLsb' 14 5 ∈ ([0b00000, 0b00001, 0b00010, 0b00011, 0b10010, 0b11000] : List (BitVec 5)))

/-- What every state has that a step leaves: memory in its canonical form; IMASK[4:0] = 1 (10_state.md R40); ILAT[3] and
ILAT[4] clear (R41; 60_exceptions.md R360); IPEND[0] clear (44_event_instructions.md R299); SEQSTAT[31:19] and [13:6] clear and
its causes legal (10_state.md R31; 60_exceptions.md R385, R411); SYSCFG[0] and SYSCFG[2] clear (10_state.md R32);
SIC_ISR[31:24] clear (60_exceptions.md R370); EXCAUSE = 0x25 in the fault state (60_exceptions.md R394). -/
def State.Inv (s : State) : Prop :=
  Memory.wf s.mem = true ∧
  s.imask.extractLsb' 0 5 = 0b11111#5 ∧
  s.ilat.getLsbD 3 = false ∧ s.ilat.getLsbD 4 = false ∧
  s.ipend.getLsbD 0 = false ∧
  s.seqstat.extractLsb' 19 13 = 0#13 ∧ s.seqstat.extractLsb' 6 8 = 0#8 ∧
  legalExcause s.seqstat = true ∧ legalHwErrCause s.seqstat = true ∧
  s.syscfg.getLsbD 0 = false ∧ s.syscfg.getLsbD 2 = false ∧
  s.sic.isr.extractLsb' 24 8 = 0#8 ∧
  (s.doubleFault = true → s.seqstat.extractLsb' 0 6 = 0x25#6)

/-! ## What an instruction keeps -/

/-- R0..R7, P0..P5, both stack pointers and FP are kept. -/
def keepsGeneral (s t : State) : Prop :=
  t.d = s.d ∧ t.p = s.p ∧ t.ssp = s.ssp ∧ t.usp = s.usp ∧ t.fp = s.fp

/-- The return registers are kept. -/
def keepsReturns (s t : State) : Prop :=
  t.rets = s.rets ∧ t.reti = s.reti ∧ t.retx = s.retx ∧ t.retn = s.retn ∧ t.rete = s.rete

/-- The loop registers of both units are kept. -/
def keepsLoops (s t : State) : Prop :=
  t.loop0 = s.loop0 ∧ t.loop1 = s.loop1

/-- SYSCFG and the cycle counters are kept. -/
def keepsConfig (s t : State) : Prop :=
  t.syscfg = s.syscfg ∧ t.cycles = s.cycles ∧ t.cycles2 = s.cycles2

/-- IMASK, ILAT, IPEND, the event vectors and the system interrupt controller are kept. -/
def keepsEvents (s t : State) : Prop :=
  t.imask = s.imask ∧ t.ilat = s.ilat ∧ t.ipend = s.ipend ∧ t.evt = s.evt ∧ t.sic = s.sic

/-- The wait state and the double-fault signal are kept, and so are the platform and the inputs to come. -/
def keepsWorld (s t : State) : Prop :=
  t.idle = s.idle ∧ t.doubleFault = s.doubleFault ∧ t.plat = s.plat ∧ t.env = s.env ∧ t.memEpoch = s.memEpoch

/-- Every byte of data memory is kept. -/
def keepsMemory (s t : State) : Prop :=
  ∀ a : Nat, t.dataByte a = s.dataByte a

/-- Every byte of data memory outside the `n` bytes from `a` is kept. -/
def keepsMemoryOutside (a n : Nat) (s t : State) : Prop :=
  ∀ b : Nat, ¬ (a ≤ b ∧ b < a + n) → t.dataByte b = s.dataByte b

/-- Everything is kept but pc, the loop registers, the cycle counters, memory and the count of draws. Said of a state `u` with
some writes made, it says that `t` has these writes and no other. -/
def sameCore (u t : State) : Prop :=
  keepsGeneral u t ∧ keepsReturns u t ∧ t.seqstat = u.seqstat ∧ t.syscfg = u.syscfg ∧ t.astat = u.astat ∧ keepsEvents u t ∧
  keepsWorld u t

/-- Everything is kept but pc, the loop registers and the count of draws. -/
def sameButFlow (u t : State) : Prop :=
  sameCore u t ∧ t.cycles = u.cycles ∧ t.cycles2 = u.cycles2 ∧ keepsMemory u t

/-- The state with the Supervisor resources of another: SSP, RETI, RETX, RETN, RETE, SEQSTAT, SYSCFG and the memory-mapped registers
(60_exceptions.md R422; USP is the stack pointer of User mode). -/
def State.withSupervisorOf (s o : State) : State :=
  { s with
    ssp := o.ssp
    reti := o.reti
    retx := o.retx
    retn := o.retn
    rete := o.rete
    seqstat := o.seqstat
    syscfg := o.syscfg
    imask := o.imask
    ilat := o.ilat
    ipend := o.ipend
    evt := o.evt
    sic := o.sic }

/-! ## How an instruction ends -/

/-- The instruction went on to the next address of state `u`: pc and the loop units are those `NextPC` gives from the loop
registers of `u` (43_loops.md R256). -/
def goesOn (len : Word) (u t : State) : Prop :=
  t.pc = (advance len u).pc ∧ t.loop0 = (advance len u).loop0 ∧ t.loop1 = (advance len u).loop1

/-- A taken transfer has a meaning in state `s`: LOOP_END_TRANSFER is not `refuse`, or the instruction lies at the end of no
active loop (43_loops.md R259). -/
def State.transferHasMeaning (s : State) : Prop :=
  s.plat.loopEndTransfer = .refuse → ∀ k : LoopIdx, s.pc = (s.loop k).lb → (s.loop k).lc = 0

/-- The instruction was a taken transfer from state `s` to `target`: pc is the target, LT and LB are kept, and each LC is kept,
but for a unit at whose active end the instruction lies where LOOP_END_TRANSFER is `transferWinsDecrement`: it is decremented
(43_loops.md R259). -/
def goesTo (target : Word) (s t : State) : Prop :=
  t.pc = target ∧
  ∀ k : LoopIdx, (t.loop k).lt = (s.loop k).lt ∧ (t.loop k).lb = (s.loop k).lb ∧
    (t.loop k).lc =
      if s.plat.loopEndTransfer = .transferWinsDecrement ∧ s.pc = (s.loop k).lb ∧ (s.loop k).lc ≠ 0 then (s.loop k).lc - 1
      else (s.loop k).lc

/-- What event entry leaves alone (60_exceptions.md R400: nothing is pushed, no other register is written). -/
def keepsAtEntry (s t : State) : Prop :=
  keepsGeneral s t ∧ t.rets = s.rets ∧ t.rete = s.rete ∧ keepsConfig s t ∧ t.astat = s.astat ∧
  t.imask = s.imask ∧ t.evt = s.evt ∧ t.doubleFault = s.doubleFault ∧ t.plat = s.plat ∧ t.env = s.env ∧
  t.memEpoch = s.memEpoch ∧ keepsMemory s t ∧ t.draws = s.draws

/-- An error exception of code `c` was taken in state `s`: SEQSTAT.EXCAUSE, RETX with the address of the instruction, ILAT[3],
IPEND[3], pc at EVT3, and nothing else (60_exceptions.md R382, R392, R400). -/
def tookError (c : BitVec 6) (s t : State) : Prop :=
  t.pc = s.evt.get 3 ∧ t.retx = s.pc ∧ t.seqstat = s.seqstat.extractLsb' 6 26 ++ c ∧
  t.ipend = s.ipend ||| 0x0008#16 ∧ t.ilat = s.ilat &&& 0xFFF7#16 ∧ t.idle = false ∧ t.mode = .supervisor ∧
  t.reti = s.reti ∧ t.retn = s.retn ∧ t.sic = s.sic ∧ keepsLoops s t ∧ keepsAtEntry s t

/-- An exception was raised in state `s` while a handler of level 0 to 3 runs: the double fault, with its three effects and no
other (60_exceptions.md R394). -/
def tookDoubleFault (s t : State) : Prop :=
  t.seqstat = s.seqstat.extractLsb' 6 26 ++ 0x25#6 ∧ t.retx = s.pc ∧ t.doubleFault = true ∧ t.pc = s.pc ∧
  t.reti = s.reti ∧ t.retn = s.retn ∧ t.rete = s.rete ∧ t.rets = s.rets ∧ keepsLoops s t ∧ keepsGeneral s t ∧ keepsConfig s t ∧
  t.astat = s.astat ∧ keepsEvents s t ∧ t.idle = s.idle ∧ keepsMemory s t

/-- Event `n` is the one being serviced: its bit of IPEND is set and no lower one is, bit 4 not counted (10_state.md R42). -/
def State.servicing (s : State) (n : Fin 16) : Prop :=
  n ≠ 4 ∧ s.ipend.getLsbD n.val = true ∧ ∀ m : Fin 16, m < n → m ≠ 4 → s.ipend.getLsbD m.val = false

/-- Register `r` is LC, LT or LB of loop unit `k`. -/
def ofLoop (r : Reg) (k : LoopIdx) : Prop :=
  r = .lc k ∨ r = .lt k ∨ r = .lb k

/-- A write of `v` to register `r` is not the case that 43_loops.md R262 refuses: if `r` belongs to a loop unit, pc is not at
the unit's loop end, or its LC is 0 before and after the write. -/
def State.freeOfLoopEnd (s : State) (r : Reg) (v : Word) : Prop :=
  ∀ k : LoopIdx, ofLoop r k → s.pc ≠ (s.loop k).lb ∨ ((s.loop k).lc = 0 ∧ (r = .lc k → v = 0))

/-- A write of `v` to register `r` has a meaning in state `s`: it is not the case that 43_loops.md R262 refuses, or the platform
lets it run (log 17). -/
def State.writeHasMeaning (s : State) (r : Reg) (v : Word) : Prop :=
  s.plat.loopEndWrite = .refuse → s.freeOfLoopEnd r v

/-- The instruction went on from state `u`, in which the registers of unit `k` are as it wrote them, and what the unit saw of
them is open: LTk and LBk stay as written; pc and the other unit are those `NextPC` gives for some registers of unit `k`, and
LCk stays as written or is the count the unit left (43_loops.md R262; log 17). -/
def goesOnOpen (len : Word) (k : LoopIdx) (u t : State) : Prop :=
  ∃ seen : LoopUnit,
    t.pc = (advance len (u.setLoop k seen)).pc ∧ (t.loop k).lt = (u.loop k).lt ∧ (t.loop k).lb = (u.loop k).lb ∧
    ((t.loop k).lc = (u.loop k).lc ∨ (t.loop k).lc = ((advance len (u.setLoop k seen)).loop k).lc) ∧
    ∀ j : LoopIdx, j ≠ k → t.loop j = (advance len (u.setLoop k seen)).loop j

/-- A 2-byte instruction that wrote `v` to register `r` in state `s`, which gave state `u`, went on. Away from the own active loop
end of the unit `r` belongs to, by the platform's reading: from the next instruction on the unit sees the write, so that pc and
the other unit are those the registers before it give and the unit stands as written (43_loops.md R262; 40_stack_and_moves.md
R174); or at once, and all are those the registers after the write give (43_loops.md R256; log 38). At that loop end, as `goesOnOpen`
says (R262; log 17). -/
def goesOnAfterWrite (r : Reg) (v : Word) (s u t : State) : Prop :=
  (s.freeOfLoopEnd r v → s.plat.loopWriteSeen = .fromNext → t.pc = (advance 2 s).pc ∧
    ∀ k : LoopIdx, (ofLoop r k → t.loop k = u.loop k) ∧ (¬ ofLoop r k → t.loop k = (advance 2 s).loop k)) ∧
  (s.freeOfLoopEnd r v → s.plat.loopWriteSeen = .atOnce → goesOn 2 u t) ∧
  ∀ k : LoopIdx, ofLoop r k → goesOnOpen 2 k u t

/-! ## Data memory -/

/-- A 32-bit access at the address reaches data memory: aligned, no register, four bytes of MEM, none of PROGRAM
(20_memory.md R81, R86, R92, R98). -/
def State.holdsWord (s : State) (a : Word) : Prop :=
  a.extractLsb' 0 2 = 0#2 ∧ mmrAt a = none ∧
  ∀ i : Fin 4, s.isRam (a.toNat + i.val) = true ∧ s.isProgram (a.toNat + i.val) = false

/-! ## Safe steps -/

/-- The step goes on, and not into the fault state. -/
def State.safeStep (s : State) : Prop :=
  ∃ t, step s = .next t ∧ t.doubleFault = false

end Sys2Proof.Machine
end

