-- ==== Sys2Proof/Certificates/Slice0/Obligations.lean ====
section
/-! DEFINITION. The statements for the provers. Each docstring names the rule of the spec it formalises. -/

open Sys2Proof Sys2Proof.Machine

/-! ## Encoding -/

/-- Decoding the bytes of a well-formed statement gives it back, whatever follows them (30_encoding.md R122 to R133). -/
def Obligations.DecodeInvertsEncode : Prop :=
  ∀ (i : Instr) (rest : List Byte), i.wellFormed = true → decode (encodeBytes i ++ rest) = .ok i

/-- The bytes a statement is decoded from are the ones it encodes to: no two statements share a word (30_encoding.md R122 to
R133, R140). -/
def Obligations.EncodeInvertsDecode : Prop :=
  ∀ (b0 b1 b2 b3 : Byte) (i : Instr), decode [b0, b1, b2, b3] = .ok i → encodeBytes i <+: [b0, b1, b2, b3]

/-- Words written out from the spec's examples decode to their statements (R160, R163, R191, R264, R290, R286). -/
def Obligations.ExampleWords : Prop :=
  decode [0x7B, 0x01] = .ok (.push .reti) ∧ decode [0x3B, 0x01] = .ok (.pop .reti) ∧
  decode [0x10, 0x20] = .ok (.jumpS 0x010) ∧ decode [0xA2, 0xE0, 0x06, 0x50] = .ok (.lsetup .l0 2 (.p 5) 6) ∧
  decode [0x30, 0x00] = .ok (.cli 0) ∧ decode [0xA3, 0x00] = .ok (.excpt 3)

/-! ## The step -/

/-- When the bytes of the statement that PROGRAM places at pc decode to a well-formed statement, a step that reaches the fetch is
the meaning of that statement; where PROGRAM places none at pc, the middle of a longer one included, it is stuck (00_scope.md R6,
R11; 20_memory.md R90). `prepare` is what the step does before: inputs, reset, idle, events. A meaning itself moves pc past its
instruction or takes the transfer. -/
def Obligations.StepRunsDecodedStatement : Prop :=
  ∀ s t : State, prepare s = .ok t → t.pc.getLsbD 0 = false →
    (∀ (bs : List Byte) (i : Instr), t.plat.program.statementAt t.pc.toNat = some bs → decode bs = .ok i →
      i.wellFormed = true → step s = exec i t) ∧
    (t.plat.program.statementAt t.pc.toNat = none → step s = .fault .unmappedFetch)

/-- A step without inputs, of a core that is not idle and has nothing to take, reaches the fetch, and of the state only SIC_ISR
and the pulses outstanding change (00_scope.md R11; 60_exceptions.md R370, R376, R396). That no input is active once the schedule
of inputs is used up is the model's choice (log 14). -/
def Obligations.QuietStepReachesFetch : Prop :=
  ∀ s : State, s.env = [] → s.doubleFault = false → s.idle = false → s.ilat.getLsbD 0 = false →
    s.ilat.getLsbD 1 = false → s.sic.badField = false → s.pendingEvent = none →
    prepare s = .ok (s.setSic { s.sic with isr := 0, sent := 0 })

/-- A fetch at an odd pc raises 0x2A with the odd address in RETX (20_memory.md R90; 41_jumps_calls.md R208). -/
def Obligations.OddFetchRaises : Prop :=
  ∀ s t : State, prepare s = .ok t → t.pc.getLsbD 0 = true → t.inHandler = false →
    ∃ u, step s = .next u ∧ tookError 0x2A#6 t u

/-! ## The whole machine -/

/-- The state after reset has the invariant. -/
def Obligations.ResetHasInvariant : Prop :=
  State.reset.Inv

/-- Every step keeps the invariant. -/
def Obligations.StepKeepsInvariant : Prop :=
  ∀ s t : State, s.Inv → step s = .next t → t.Inv

/-- The mode is the function of IPEND that 60_exceptions.md R420 gives (general knowledge of the spec, its decision D6). -/
def Obligations.ModeOfIpend : Prop :=
  ∀ s : State,
    (s.mode = .emulation ↔ s.ipend.getLsbD 0 = true) ∧
    (s.mode = .supervisor ↔ s.ipend.getLsbD 0 = false ∧ ∃ n : Fin 16, n ≠ 4 ∧ s.ipend.getLsbD n.val = true) ∧
    (s.mode = .user ↔ ∀ n : Fin 16, n ≠ 4 → s.ipend.getLsbD n.val = false)

/-- An instruction executed in User mode leaves every Supervisor resource alone, and either stays in User mode or enters the
exception handler at EVT3 (60_exceptions.md R422, R424; 20_memory.md R95). -/
def Obligations.UserModeIsConfined : Prop :=
  ∀ (i : Instr) (s t : State), s.mode = .user → exec i s = .next t →
    t.ssp = s.ssp ∧ t.reti = s.reti ∧ t.retn = s.retn ∧ t.rete = s.rete ∧ t.syscfg = s.syscfg ∧ t.imask = s.imask ∧
    t.evt = s.evt ∧ t.sic = s.sic ∧ t.doubleFault = s.doubleFault ∧ t.plat = s.plat ∧ t.env = s.env ∧
    ((t.mode = .user ∧ t.ipend = s.ipend ∧ t.ilat = s.ilat ∧ t.seqstat = s.seqstat ∧ t.retx = s.retx ∧ t.idle = s.idle) ∨
      (t.mode = .supervisor ∧ t.pc = s.evt.get 3 ∧ t.ipend = s.ipend ||| 0x0008#16 ∧ t.ilat = s.ilat &&& 0xFFF7#16 ∧
        t.seqstat.extractLsb' 6 26 = s.seqstat.extractLsb' 6 26))

/-- What an instruction does that stays in User mode does not depend on the Supervisor resources, those reached by address
included (60_exceptions.md R422): with the resources of any other state of User mode it does the same to everything else and
leaves them as they are. -/
def Obligations.UserModeLearnsNothing : Prop :=
  ∀ (i : Instr) (s t o : State), s.mode = .user → o.mode = .user → exec i s = .next t → t.mode = .user →
    exec i (s.withSupervisorOf o) = .next (t.withSupervisorOf o)

/-- An instruction leaves Supervisor mode for User mode only if it is a return from an event (60_exceptions.md R424). -/
def Obligations.OnlyReturnsEnterUserMode : Prop :=
  ∀ (i : Instr) (s t : State), s.mode ≠ .user → exec i s = .next t → t.mode = .user →
    i = .rti ∨ i = .rtx ∨ i = .rtn ∨ i = .rte

/-- An instruction changes IPEND only by entering the exception handler, by a return from an event, or as the push or the pop
of RETI (10_state.md R42; 40_stack_and_moves.md R172). -/
def Obligations.OnlyEventsChangeIpend : Prop :=
  ∀ (i : Instr) (s t : State), exec i s = .next t → t.ipend ≠ s.ipend →
    (t.ipend = s.ipend ||| 0x0008#16 ∧ t.pc = s.evt.get 3) ∨ i = .rti ∨ i = .rtx ∨ i = .rtn ∨ i = .rte ∨
      i = .push .reti ∨ i = .pop .reti

/-- An instruction changes IMASK only as CLI, STI or a store, which reaches it through its address, and sets a bit of ILAT only as
the RAISE of that number (10_state.md R40, R41; 60_exceptions.md R365). -/
def Obligations.WhoWritesMaskAndLatch : Prop :=
  ∀ (i : Instr) (s t : State), exec i s = .next t →
    (t.imask ≠ s.imask → (∃ d, i = .cli d) ∨ (∃ d, i = .sti d) ∨ (∃ r, i = .push r) ∨ (∃ x y, i = .pushMultiple x y)) ∧
    ∀ b : Nat, s.ilat.getLsbD b = false → t.ilat.getLsbD b = true → ∃ n : BitVec 4, i = .raise n ∧ n.toNat = b

/-! ## Reset -/

/-- While RESET is asserted a step leaves the reset state, whatever the state was, the fault state and the wait state included
(70_reset_and_hazards.md R440, R442). -/
def Obligations.ResetOverridesEverything : Prop :=
  ∀ s : State, s.nextInput.reset = true → ∃ t, step s = .next t ∧
    t.pc = (if s.plat.bmode = 0 then 0x20000000#32 else 0xEF000000#32) ∧ t.ipend = 0x0012#16 ∧ t.imask = 0x001F#16 ∧
    t.ilat = 0 ∧ t.seqstat = 0 ∧ t.syscfg = 0x30#32 ∧ t.sic.imask = 0 ∧ t.sic.iwr = 0xFFFFFFFF#32 ∧
    t.sic.isr = s.nextInput.periph.setWidth 32 ∧ t.sic.iar0 = 0x10000000#32 ∧ t.sic.iar1 = 0x33322221#32 ∧
    t.sic.iar2 = 0x66655444#32 ∧ t.sic.sent = 0 ∧ t.idle = false ∧ t.doubleFault = false ∧ t.mode = .supervisor

/-- The address of the first instruction after a reset depends on BMODE alone, never on EVT1 (70_reset_and_hazards.md R441;
10_state.md R38). -/
def Obligations.ResetVectorIsFixed : Prop :=
  ∀ (lines : BitVec 24) (s : State),
    (resetState lines s).pc = (if s.plat.bmode = 0b00#2 then 0x20000000#32 else 0xEF000000#32) ∧
    ∀ v : Word, (resetState lines (s.setEvt 1 v)).pc = (resetState lines s).pc

/-- A latched reset request, by the value of the parameter SOFT_RESET: with core_reset the next step leaves the reset state of
70_reset_and_hazards.md R440, with refuse it has no meaning (44_event_instructions.md R282). THE MODEL'S CHOICE in it: the
reset comes before every other check and input of that step but RESET itself (logs 10 and 29). -/
def Obligations.RequestedResetIsTaken : Prop :=
  ∀ s : State, s.nextInput.reset = false → s.doubleFault = false → s.ilat.getLsbD 1 = true →
    (s.plat.softReset = .coreReset →
      ∃ t, step s = .next t ∧ t.pc = (if s.plat.bmode = 0 then 0x20000000#32 else 0xEF000000#32) ∧
        t.ipend = 0x0012#16 ∧ t.imask = 0x001F#16 ∧ t.ilat = 0 ∧ t.seqstat = 0 ∧ t.syscfg = 0x30#32 ∧ t.mode = .supervisor) ∧
    (s.plat.softReset = .refuse → step s = .refused .softReset)

/-! ## Exceptions -/

/-- Taking an error exception outside the handlers of levels 0 to 3 (60_exceptions.md R382, R392, R400). -/
def Obligations.ErrorExceptionIsTaken : Prop :=
  ∀ (x : Exc) (s done : State), s.inHandler = false → x.service = false → tookError x.code s (takeException x s done)

/-- An exception of either type inside a handler of levels 0 to 3 is a double fault, and after it no step is defined but a reset
(60_exceptions.md R394; the end of steps is the spec's decision D15). -/
def Obligations.DoubleFaultIsFinal : Prop :=
  (∀ (x : Exc) (s done : State), s.inHandler = true → tookDoubleFault s (takeException x s done)) ∧
  ∀ s : State, s.doubleFault = true → s.nextInput.reset = false → step s = .fault .doubleFaultState

/-- EXCPT outside the handlers of levels 0 to 3: the loop units act, RETX is the next address, EXCAUSE the m field
(44_event_instructions.md R286; 43_loops.md R260; the return address is the spec's decision D12). -/
def Obligations.ExcptCompletes : Prop :=
  ∀ (m : BitVec 4) (s : State), s.inHandler = false →
    ∃ t, exec (.excpt m) s = .next t ∧ t.pc = s.evt.get 3 ∧ t.retx = (advance 2 s).pc ∧
      t.loop0 = (advance 2 s).loop0 ∧ t.loop1 = (advance 2 s).loop1 ∧
      t.seqstat = s.seqstat.extractLsb' 6 26 ++ 0#2 ++ m ∧ t.ipend = s.ipend ||| 0x0008#16 ∧
      t.ilat = s.ilat &&& 0xFFF7#16 ∧ t.idle = false ∧ t.mode = .supervisor ∧ t.reti = s.reti ∧ t.retn = s.retn ∧
      t.sic = s.sic ∧ keepsAtEntry s t

/-- A protected instruction in User mode, or one that names a protected register, raises 0x2E and does nothing else
(60_exceptions.md R422; 40_stack_and_moves.md R160, R163, R170). -/
def Obligations.UserModeIsRefusedSupervisorResources : Prop :=
  ∀ s : State, s.mode = .user →
    (∀ i : Instr, (i = .rti ∨ i = .rtx ∨ i = .rtn ∨ i = .rte ∨ i = .idle ∨ (∃ d, i = .cli d) ∨ (∃ d, i = .sti d) ∨
      (∃ n, i = .raise n)) → ∃ t, exec i s = .next t ∧ tookError 0x2E#6 s t) ∧
    (∀ r ∈ ([.reti, .retx, .retn, .rete, .syscfg, .seqstat, .usp] : List Reg),
      (∃ t, exec (.push r) s = .next t ∧ tookError 0x2E#6 s t) ∧
      (r ≠ .seqstat → ∃ t, exec (.pop r) s = .next t ∧ tookError 0x2E#6 s t) ∧
      ∀ g : GReg, (∃ t, exec (.regMove (.g g) r) s = .next t ∧ tookError 0x2E#6 s t) ∧
        (r ≠ .seqstat → ∃ t, exec (.regMove r (.g g)) s = .next t ∧ tookError 0x2E#6 s t))

/-- A stack statement at a misaligned stack pointer raises 0x24 and does nothing else, unless it names a protected register in
User mode, which has priority (20_memory.md R86; 40_stack_and_moves.md R160 to R167; 60_exceptions.md R388). THE MODEL'S CHOICES in it:
the push of SP, a form that a rule of the spec refuses, is run like the others (log 12), and so are the pops of CYCLES and
CYCLES2 on a platform that admits them (log 13). -/
def Obligations.MisalignedStackRaises : Prop :=
  ∀ s : State, s.sp.extractLsb' 0 2 ≠ 0#2 → s.inHandler = false →
    (∀ r : Reg, ¬ (s.mode = .user ∧ supervisorReg r = true) → ∃ t, exec (.push r) s = .next t ∧ tookError 0x24#6 s t) ∧
    (∀ r : Reg, popAdmitted r = true → s.admitsWrite r = true → ¬ (s.mode = .user ∧ supervisorReg r = true) →
      ∃ t, exec (.pop r) s = .next t ∧ tookError 0x24#6 s t) ∧
    ∀ (x : Option DReg) (y : Option (Fin 6)), (x.isSome || y.isSome) = true →
      (∃ t, exec (.pushMultiple x y) s = .next t ∧ tookError 0x24#6 s t) ∧
      (∃ t, exec (.popMultiple x y) s = .next t ∧ tookError 0x24#6 s t)

/-- A load or store in User mode at the address of a memory-mapped register raises 0x23, a misaligned one 0x24; so does every
push and pop, single and multiple, whose first access is there (20_memory.md R95; 60_exceptions.md R388). THE MODEL'S CHOICES in
it: the push of SP is run like the others (log 12), and so are the pops of CYCLES and CYCLES2 on a platform that admits them
(log 13); where PROGRAM covers the address the register is reached first and 0x23 raised, not the access refused (log 35). -/
def Obligations.UserModeIsRefusedRegistersInMemory : Prop :=
  ∀ (a v : Word) (s : State), s.mode = .user →
    ((mmrAt a).isSome = true → memRead a s = .error (.exc .dataProtection) ∧ memWrite a v s = .error (.exc .dataProtection)) ∧
    (a.extractLsb' 0 2 ≠ 0#2 → memRead a s = .error (.exc .dataMisaligned) ∧ memWrite a v s = .error (.exc .dataMisaligned)) ∧
    ((mmrAt a).isSome = true → s.sp = a + 4 →
      (∀ r : Reg, supervisorReg r = false → ∃ t, exec (.push r) s = .next t ∧ tookError 0x23#6 s t) ∧
      ∀ (x : Option DReg) (y : Option (Fin 6)), (x.isSome || y.isSome) = true →
        ∃ t, exec (.pushMultiple x y) s = .next t ∧ tookError 0x23#6 s t) ∧
    ((mmrAt a).isSome = true → s.sp = a →
      (∀ r : Reg, popAdmitted r = true → s.admitsWrite r = true → supervisorReg r = false →
        ∃ t, exec (.pop r) s = .next t ∧ tookError 0x23#6 s t) ∧
      ∀ (x : Option DReg) (y : Option (Fin 6)), (x.isSome || y.isSome) = true →
        ∃ t, exec (.popMultiple x y) s = .next t ∧ tookError 0x23#6 s t)

/-! ## Events -/

/-- Entry of the NMI or of an interrupt (60_exceptions.md R400). -/
def Obligations.EventEntry : Prop :=
  ∀ (n : Fin 16) (ret : Word) (s : State), n = 2 ∨ 5 ≤ n.val →
    (takeEvent n ret s).pc = s.evt.get n ∧
    (takeEvent n ret s).retn = (if n = 2 then ret else s.retn) ∧
    (takeEvent n ret s).reti = (if n = 2 then s.reti else ret) ∧
    (takeEvent n ret s).retx = s.retx ∧
    (∀ b : Fin 16, (takeEvent n ret s).ilat.getLsbD b.val = (s.ilat.getLsbD b.val && decide (b ≠ n))) ∧
    (∀ b : Fin 16, (takeEvent n ret s).ipend.getLsbD b.val =
      (s.ipend.getLsbD b.val || decide (b = n) || (decide (b = 4) && decide (5 ≤ n.val)))) ∧
    (takeEvent n ret s).sic = { s.sic with sent := (takeEvent n ret s).sic.sent } ∧
    (∀ k : Fin 9, (takeEvent n ret s).sic.sent.getLsbD k.val = (s.sic.sent.getLsbD k.val && decide (n.val ≠ 7 + k.val))) ∧
    (takeEvent n ret s).idle = false ∧ (takeEvent n ret s).seqstat = s.seqstat ∧
    (s.ipend.getLsbD 0 = false → (takeEvent n ret s).mode = .supervisor ∧ (takeEvent n ret s).sp = s.ssp) ∧
    keepsLoops s (takeEvent n ret s) ∧ keepsAtEntry s (takeEvent n ret s)

/-- The event taken is the takeable one of the smallest number: the NMI if latched above the level being serviced, an interrupt
if latched, unmasked, not blocked by IPEND[4] and above that level (60_exceptions.md R396). -/
def Obligations.AcceptanceRule : Prop :=
  ∀ (s : State) (n : Fin 16),
    let takeable := fun m : Fin 16 =>
      s.ilat.getLsbD m.val = true ∧ (∀ c : Fin 16, c ≠ 4 → c ≤ m → s.ipend.getLsbD c.val = false) ∧
        (m = 2 ∨ (5 ≤ m.val ∧ s.imask.getLsbD m.val = true ∧ s.ipend.getLsbD 4 = false))
    s.pendingEvent = some n ↔ takeable n ∧ ∀ m : Fin 16, m < n → ¬ takeable m

/-- An event that is to be taken after the inputs are latched is entered with the current pc as the return address, and the
step ends (60_exceptions.md R402; 00_scope.md R11). -/
def Obligations.StepEntersEvent : Prop :=
  ∀ (s : State) (n : Fin 16),
    let e := s.nextInput
    let u := latchInputs e (s.setEnv s.env.tail)
    e.reset = false → s.doubleFault = false → s.ilat.getLsbD 1 = false → s.sic.badField = false →
    u.emulationPending = false → u.pendingEvent = some n →
    ∃ t, step s = .next t ∧ t.pc = s.evt.get n ∧ (if n = 2 then t.retn = s.pc else t.reti = s.pc) ∧
      t.ipend.getLsbD n.val = true ∧ t.ilat.getLsbD n.val = false ∧ t.idle = false ∧ keepsGeneral s t ∧ keepsLoops s t

/-- The core's own inputs set their bits of ILAT, and a hardware error records its cause (60_exceptions.md R360, R411). The bits
15..7 are the SIC's. THE MODEL'S CHOICE in it, the clause on ILAT[0]: an emulator request and TRST, which R430 constrains to false,
set and clear the bit, and TRST wins where both come in one step (log 24). -/
def Obligations.CoreInputsAreLatched : Prop :=
  ∀ (e : EnvInput) (s : State),
    let t := latchCore e s
    t.ilat.getLsbD 6 = (s.ilat.getLsbD 6 || e.timerZero) ∧ t.ilat.getLsbD 5 = (s.ilat.getLsbD 5 || e.hwError.isSome) ∧
    t.ilat.getLsbD 2 = (s.ilat.getLsbD 2 || e.nmi) ∧ t.ilat.getLsbD 0 = ((s.ilat.getLsbD 0 || e.emuReq) && !e.trst) ∧
    (∀ b : Fin 16, b ≠ 0 → b ≠ 2 → b ≠ 5 → b ≠ 6 → t.ilat.getLsbD b.val = s.ilat.getLsbD b.val) ∧
    t.seqstat.extractLsb' 14 5 = (match e.hwError with
      | some .dmaBusComparator => 0b00001#5
      | some .systemMmr => 0b00010#5
      | some .externalMemory => 0b00011#5
      | some .performanceMonitor => 0b10010#5
      | none => s.seqstat.extractLsb' 14 5) ∧
    t.seqstat.extractLsb' 0 14 = s.seqstat.extractLsb' 0 14 ∧ t.seqstat.extractLsb' 19 13 = s.seqstat.extractLsb' 19 13

/-- The SIC's requests and wake-up: SIC_ISR follows the lines whatever SIC_IMASK is; input k is requested if an unmasked source
assigned to it is asserted; an unmasked source with an undefined field is refused (60_exceptions.md R370). -/
def Obligations.SicFollowsLines : Prop :=
  (∀ (c : Sic) (lines : BitVec 24) (ipend : BitVec 16) (early : BitVec 9) (n : Fin 32),
    (c.latched lines ipend early).isr.getLsbD n.val = (if n.val < 24 then lines.getLsbD n.val else false)) ∧
  (∀ (c : Sic) (k : Fin 9), c.requests.getLsbD k.val = true ↔
    ∃ n : Fin 24, c.isr.getLsbD n.val = true ∧ c.imask.getLsbD n.val = true ∧ (c.field n.val).toNat = k.val) ∧
  (∀ c : Sic, c.wakes = true ↔ ∃ n : Fin 24, c.isr.getLsbD n.val = true ∧ c.iwr.getLsbD n.val = true) ∧
  (∀ s : State, s.nextInput.reset = false → s.doubleFault = false → s.ilat.getLsbD 1 = false →
    (∃ n : Fin 24, s.sic.imask.getLsbD n.val = true ∧ 9 ≤ (s.sic.field n.val).toNat) → step s = .refused .iarField)

/-- The pulse and acknowledge protocol of the SIC, for each input k (60_exceptions.md R376): an input that is not requested is
forgotten; a requested one without an outstanding pulse pulses if IPEND is clear, and may pulse, by the draw, if it is set. -/
def Obligations.SicPulses : Prop :=
  ∀ (e : EnvInput) (s : State) (k : Fin 9),
    let t := latchSic e s
    let requested := ({ s.sic with isr := e.periph.setWidth 32 } : Sic).requests.getLsbD k.val
    let pulse := requested && !s.sic.sent.getLsbD k.val && (!s.ipend.getLsbD (7 + k.val) || e.earlyPulse.getLsbD k.val)
    t.sic.sent.getLsbD k.val = (requested && (s.sic.sent.getLsbD k.val || pulse)) ∧
    t.ilat.getLsbD (7 + k.val) = (s.ilat.getLsbD (7 + k.val) || pulse) ∧
    ∀ b : Fin 7, t.ilat.getLsbD b.val = s.ilat.getLsbD b.val

/-- An idle core wakes if an enabled request line is asserted or an event is takeable, stays if nothing is latched, and by the
draw else; on waking an event to take is entered, else the instruction runs (44_event_instructions.md R312). -/
def Obligations.IdleWakes : Prop :=
  ∀ (wake : Bool) (s : State), s.idle = true →
    (∀ n, s.pendingEvent = some n → checkIdle wake s = .error (.next (takeEvent n s.pc (s.setIdle false)))) ∧
    (s.pendingEvent = none → s.sic.wakes = true → checkIdle wake s = .ok (s.setIdle false)) ∧
    (s.pendingEvent = none → s.sic.wakes = false → s.ilat &&& 0xFFE0#16 = 0 → checkIdle wake s = .error (.next s)) ∧
    (s.pendingEvent = none → s.sic.wakes = false → s.ilat &&& 0xFFE0#16 ≠ 0 →
      checkIdle wake s = if wake then .ok ((s.setIdle false).setDraws (s.draws + 1))
        else .error (.next (s.setDraws (s.draws + 1))))

/-- An interrupt taken between two instructions and left by RTI with nothing in between comes back to the same address, with
the same IPEND and the same mode, if pc at the vector is at no active loop end (60_exceptions.md R400, R432;
44_event_instructions.md R296). -/
def Obligations.RtiUndoesInterruptEntry : Prop :=
  ∀ (n : Fin 16) (s : State), 5 ≤ n.val → s.ipend.getLsbD 4 = false →
    (∀ c : Fin 16, c ≠ 4 → c ≤ n → s.ipend.getLsbD c.val = false) → (∀ k, s.evt.get n ≠ (s.loop k).lb) →
    ∃ t, exec .rti (takeEvent n s.pc s) = .next t ∧ t.pc = s.pc ∧ t.ipend = s.ipend ∧ t.mode = s.mode ∧
      keepsLoops s t ∧ keepsGeneral s t ∧ t.astat = s.astat ∧ t.seqstat = s.seqstat ∧ keepsMemory s t

/-! ## Jumps, calls, RTS -/

/-- The jumps and RTS: the target is the instruction's address plus the sign-extended offset, the register, their sum, or RETS;
nothing else changes (41_jumps_calls.md R191, R192, R194, R195, R196, R205), unless the value refuse of LOOP_END_TRANSFER leaves the
transfer without a meaning (43_loops.md R259). THE MODEL'S CHOICE in it: RTS keeps the loop units also where it returns to the
address after a call at an active loop end, for which R210 leaves open what the loop unit does (log 37). -/
def Obligations.JumpsAndRtsComplete : Prop :=
  ∀ s : State, s.transferHasMeaning →
    (∀ off : BitVec 12, ∃ t, exec (.jumpS off) s = .next t ∧ goesTo (s.pc + BitVec.ofInt 32 (2 * off.toInt)) s t ∧
      sameButFlow s t) ∧
    (∀ off : BitVec 24, ∃ t, exec (.jumpL off) s = .next t ∧ goesTo (s.pc + BitVec.ofInt 32 (2 * off.toInt)) s t ∧
      sameButFlow s t) ∧
    (∀ p : PReg, ∃ t, exec (.jumpP p) s = .next t ∧ goesTo (s.preg p) s t ∧ sameButFlow s t) ∧
    (∀ p : PReg, ∃ t, exec (.jumpPcP p) s = .next t ∧ goesTo (s.pc + s.preg p) s t ∧ sameButFlow s t) ∧
    (∃ t, exec .rts s = .next t ∧ goesTo s.rets s t ∧ sameButFlow s t)

/-- The calls: RETS takes the address after the call, also at a loop end; nothing else changes (41_jumps_calls.md R200, R201,
R202, R210), unless the value refuse of LOOP_END_TRANSFER leaves the transfer without a meaning (43_loops.md R259). -/
def Obligations.CallsComplete : Prop :=
  ∀ s : State, s.transferHasMeaning →
    (∀ off : BitVec 24, ∃ t, exec (.call off) s = .next t ∧ t.rets = s.pc + 4 ∧
      goesTo (s.pc + BitVec.ofInt 32 (2 * off.toInt)) s t ∧ sameButFlow (s.setRets (s.pc + 4)) t) ∧
    (∀ p : PReg, ∃ t, exec (.callP p) s = .next t ∧ t.rets = s.pc + 2 ∧ goesTo (s.preg p) s t ∧
      sameButFlow (s.setRets (s.pc + 2)) t) ∧
    (∀ p : PReg, ∃ t, exec (.callPcP p) s = .next t ∧ t.rets = s.pc + 2 ∧ goesTo (s.pc + s.preg p) s t ∧
      sameButFlow (s.setRets (s.pc + 2)) t)

/-- A taken transfer at no active loop end is taken and keeps both loop units; at one it does what the value of the parameter
LOOP_END_TRANSFER says: transfer_wins keeps the units, transfer_wins_decrement decrements LC of each unit whose end it is, and with
refuse every taken jump, call and return has no meaning (43_loops.md R259). -/
def Obligations.TransferAtLoopEnd : Prop :=
  (∀ (target : Word) (s : State), (∀ k, s.pc = (s.loop k).lb → (s.loop k).lc = 0) →
    takeTransfer target s = .next (s.setPc target)) ∧
  (∀ (target : Word) (s : State), s.plat.loopEndTransfer = .transferWins →
    takeTransfer target s = .next (s.setPc target)) ∧
  (∀ (target : Word) (s : State), s.plat.loopEndTransfer = .transferWinsDecrement →
    ∃ t, takeTransfer target s = .next t ∧ t.pc = target ∧ ∀ k : LoopIdx, t.loop k =
      ⟨if s.pc = (s.loop k).lb ∧ (s.loop k).lc ≠ 0 then (s.loop k).lc - 1 else (s.loop k).lc, (s.loop k).lt, (s.loop k).lb⟩) ∧
  ∀ s : State, s.plat.loopEndTransfer = .refuse → (∃ k, s.pc = (s.loop k).lb ∧ (s.loop k).lc ≠ 0) →
    (∀ i : Instr, (∃ off, i = .jumpS off) ∨ (∃ off, i = .jumpL off) ∨ (∃ p, i = .jumpP p) ∨ (∃ p, i = .jumpPcP p) ∨
      (∃ off, i = .call off) ∨ (∃ p, i = .callP p) ∨ (∃ p, i = .callPcP p) ∨ i = .rts ∨
      (s.cc = true ∧ ∃ bp off, i = .ifCcJump bp off) ∨ (s.cc = false ∧ ∃ bp off, i = .ifNotCcJump bp off) →
      exec i s = .refused .loopEndTransfer) ∧
    (∀ n : Fin 16, n = 1 ∨ 5 ≤ n.val → s.servicing n → exec .rti s = .refused .loopEndTransfer) ∧
    (s.servicing 3 → exec .rtx s = .refused .loopEndTransfer) ∧ (s.servicing 2 → exec .rtn s = .refused .loopEndTransfer) ∧
    (s.servicing 0 → exec .rte s = .refused .loopEndTransfer)

/-! ## Loops -/

/-- NextPC, as the pseudocode of 43_loops.md R256 gives it: unit 1 before unit 0. R256 is the spec's inference from R252, R253
and R255; that LC0 is kept while unit 1 loops back is its decision D13. -/
def Obligations.NextAddress : Prop :=
  ∀ (len : Word) (s : State),
    let t := advance len s
    let back1 := s.pc = s.loop1.lb ∧ 2 ≤ s.loop1.lc.toNat
    let back0 := ¬ back1 ∧ s.pc = s.loop0.lb ∧ 2 ≤ s.loop0.lc.toNat
    (back1 → t.pc = s.loop1.lt ∧ t.loop1.lc.toNat + 1 = s.loop1.lc.toNat ∧ t.loop0 = s.loop0) ∧
    (¬ back1 → t.loop1.lc = (if s.pc = s.loop1.lb ∧ s.loop1.lc = 1 then 0 else s.loop1.lc)) ∧
    (back0 → t.pc = s.loop0.lt ∧ t.loop0.lc.toNat + 1 = s.loop0.lc.toNat) ∧
    (¬ back1 → ¬ back0 → t.pc = s.pc + len ∧
      t.loop0.lc = (if s.pc = s.loop0.lb ∧ s.loop0.lc = 1 then 0 else s.loop0.lc)) ∧
    t.loop0.lt = s.loop0.lt ∧ t.loop0.lb = s.loop0.lb ∧ t.loop1.lt = s.loop1.lt ∧ t.loop1.lb = s.loop1.lb

/-- A unit whose LC is 0 or 1 does not loop: the code runs once, whatever LT and LB are (43_loops.md R257, R253; for the count 1
R257 is the spec's inference from R256). -/
def Obligations.CountsZeroAndOneRunOnce : Prop :=
  ∀ (len : Word) (s : State), (s.loop0.lc = 0 ∨ s.loop0.lc = 1) → (s.loop1.lc = 0 ∨ s.loop1.lc = 1) →
    (advance len s).pc = s.pc + len

/-- When both loops end at one instruction, unit 0 acts on it only once unit 1 has expired, and is untouched before
(43_loops.md R255; untouched by the spec's decision D13). -/
def Obligations.InnerLoopGoesFirst : Prop :=
  ∀ (len : Word) (s : State), s.pc = s.loop0.lb → s.pc = s.loop1.lb → 2 ≤ s.loop0.lc.toNat →
    (2 ≤ s.loop1.lc.toNat → (advance len s).pc = s.loop1.lt ∧ (advance len s).loop0 = s.loop0) ∧
    (s.loop1.lc.toNat < 2 → (advance len s).pc = s.loop0.lt ∧ (advance len s).loop1.lc = 0 ∧
      (advance len s).loop0.lc = s.loop0.lc - 1)

/-- A loop of one instruction with LC = n + 1 runs it n + 1 times: after each pass but the last pc is back at it, after the last
LC is 0 and pc is past it (43_loops.md R252, R253, R254). -/
def Obligations.LoopRunsCountTimes : Prop :=
  ∀ (len : Word) (n : Nat) (s : State), s.loop1.lc.toNat = n + 1 → s.pc = s.loop1.lb → s.loop1.lt = s.loop1.lb →
    (s.pc = s.loop0.lb → s.loop0.lc = 0) →
    (∀ m ≤ n, ((advance len)^[m] s).pc = s.pc ∧ ((advance len)^[m] s).loop1.lc.toNat = n + 1 - m) ∧
    ((advance len)^[n + 1] s).pc = s.pc + len ∧ ((advance len)^[n + 1] s).loop1.lc = 0

/-- LSETUP with offsets the spec admits: LT, LB and LC of the unit, and nothing else (43_loops.md R264). At the active end of the
unit it loads R262 refuses it, and so does the model where the platform's loopEndWrite is refuse; that the instruction runs
there on the other platforms, with pc and LC as for some view of the unit, is the model's choice (log 17). -/
def Obligations.LsetupCompletes : Prop :=
  ∀ (k : LoopIdx) (soff : BitVec 4) (p : PReg) (eoff : BitVec 10) (s : State), 2 ≤ soff.toNat → soff.toNat ≤ eoff.toNat →
    (s.plat.loopEndWrite = .refuse → s.pc = (s.loop k).lb → (s.loop k).lc = 0 ∧ s.preg p = 0) →
    let lt := s.pc + BitVec.ofNat 32 (2 * soff.toNat)
    let lb := s.pc + BitVec.ofNat 32 (2 * eoff.toNat)
    ∃ t, exec (.lsetup k soff p eoff) s = .next t ∧ (t.loop k).lt = lt ∧ (t.loop k).lb = lb ∧
      ((s.pc = (s.loop k).lb → (s.loop k).lc = 0 ∧ s.preg p = 0) →
        (t.loop k).lc = s.preg p ∧ goesOn 4 (s.setLoop k ⟨s.preg p, lt, lb⟩) t) ∧
      goesOnOpen 4 k (s.setLoop k ⟨s.preg p, lt, lb⟩) t ∧ sameButFlow s t

/-! ## The condition code -/

/-- The compares of data registers: CC takes the relation, the other bits of ASTAT are open, nothing else changes
(42_condition_code.md R221 to R226). -/
def Obligations.DataComparesComplete : Prop :=
  ∀ (s : State) (x : DReg),
    let ends := fun (i : Instr) (c : Prop) =>
      ∃ t hi lo, exec i s = .next t ∧ (t.cc = true ↔ c) ∧ t.astat = ⟨hi, t.cc, lo⟩ ∧ goesOn 2 s t ∧
        sameButFlow (s.setAstat t.astat) t
    let a := s.dreg x
    (∀ y : DReg, ends (.ccEqD x y) (a = s.dreg y) ∧ ends (.ccLtD x y) (a.toInt < (s.dreg y).toInt) ∧
      ends (.ccLeD x y) (a.toInt ≤ (s.dreg y).toInt) ∧ ends (.ccLtuD x y) (a.toNat < (s.dreg y).toNat) ∧
      ends (.ccLeuD x y) (a.toNat ≤ (s.dreg y).toNat)) ∧
    ∀ imm : BitVec 3, ends (.ccEqDImm x imm) (a.toInt = imm.toInt) ∧ ends (.ccLtDImm x imm) (a.toInt < imm.toInt) ∧
      ends (.ccLeDImm x imm) (a.toInt ≤ imm.toInt) ∧ ends (.ccLtuDImm x imm) (a.toNat < imm.toNat) ∧
      ends (.ccLeuDImm x imm) (a.toNat ≤ imm.toNat)

/-- The compares of pointer registers: CC takes the relation, no other bit of ASTAT and nothing else changes
(42_condition_code.md R221, R227 to R231). -/
def Obligations.PointerComparesComplete : Prop :=
  ∀ (s : State) (x : PReg),
    let ends := fun (i : Instr) (c : Prop) =>
      ∃ t, exec i s = .next t ∧ (t.cc = true ↔ c) ∧ goesOn 2 s t ∧
        sameButFlow (s.setAstat ⟨s.astat.hi, t.cc, s.astat.lo⟩) t
    let a := s.preg x
    (∀ y : PReg, ends (.ccEqP x y) (a = s.preg y) ∧ ends (.ccLtP x y) (a.toInt < (s.preg y).toInt) ∧
      ends (.ccLeP x y) (a.toInt ≤ (s.preg y).toInt) ∧ ends (.ccLtuP x y) (a.toNat < (s.preg y).toNat) ∧
      ends (.ccLeuP x y) (a.toNat ≤ (s.preg y).toNat)) ∧
    ∀ imm : BitVec 3, ends (.ccEqPImm x imm) (a.toInt = imm.toInt) ∧ ends (.ccLtPImm x imm) (a.toInt < imm.toInt) ∧
      ends (.ccLePImm x imm) (a.toInt ≤ imm.toInt) ∧ ends (.ccLtuPImm x imm) (a.toNat < imm.toNat) ∧
      ends (.ccLeuPImm x imm) (a.toNat ≤ imm.toNat)

/-- The conditional jumps: taken exactly if CC has the sense, with or without (bp); nothing but pc and the loop units changes
(42_condition_code.md R233, R234, R236). A taken one needs a meaning by LOOP_END_TRANSFER, one not taken does not (43_loops.md
R259). -/
def Obligations.ConditionalJumpsComplete : Prop :=
  ∀ (bp : Bool) (off : BitVec 10) (s : State),
    ((s.cc = true → s.transferHasMeaning) → ∃ t, exec (.ifCcJump bp off) s = .next t ∧ sameButFlow s t ∧
      if s.cc then goesTo (s.pc + BitVec.ofInt 32 (2 * off.toInt)) s t else goesOn 2 s t) ∧
    ((s.cc = false → s.transferHasMeaning) → ∃ t, exec (.ifNotCcJump bp off) s = .next t ∧ sameButFlow s t ∧
      if s.cc then goesOn 2 s t else goesTo (s.pc + BitVec.ofInt 32 (2 * off.toInt)) s t)

/-- The conditional moves: the destination takes the source exactly if CC has the sense; every other register of the two files
and everything else is kept (42_condition_code.md R238, R239). -/
def Obligations.ConditionalMovesComplete : Prop :=
  ∀ (dst src : GReg) (s : State),
    let ends := fun (i : Instr) (moved : Bool) =>
      ∃ t, exec i s = .next t ∧ t.greg dst = (if moved then s.greg src else s.greg dst) ∧
        (∀ q, q ≠ dst → t.greg q = s.greg q) ∧ (if s.mode = .user then t.ssp = s.ssp else t.usp = s.usp) ∧
        keepsReturns s t ∧ t.seqstat = s.seqstat ∧ t.syscfg = s.syscfg ∧ t.astat = s.astat ∧ keepsEvents s t ∧
        keepsWorld s t ∧ t.cycles = s.cycles ∧ t.cycles2 = s.cycles2 ∧ keepsMemory s t ∧ goesOn 2 s t
    ends (.ifCcMove dst src) s.cc ∧ ends (.ifNotCcMove dst src) (!s.cc)

/-! ## The stack and moves -/

/-- A word stored to data memory is read back, its bytes in little-endian order, and every other byte is kept
(20_memory.md R84, R100). -/
def Obligations.WordStoreAndLoad : Prop :=
  ∀ (a v : Word) (s : State), s.holdsWord a →
    ∃ t, memWrite a v s = .ok t ∧ memRead a t = .ok v ∧
      (∀ i : Fin 4, t.dataByte (a.toNat + i.val) = v.extractLsb' (8 * i.val) 8) ∧ keepsMemoryOutside a.toNat 4 s t

/-- What a 32-bit read of each register in memory returns and what a write does, outside User mode (20_memory.md R94;
60_exceptions.md R365, R378). The refused writes are those to ILAT at an enabled bit, and those to SIC_IAR0..2 and SIC_IWR
while a source is unmasked. THE MODEL'S CHOICE in it: where PROGRAM covers the address of a register, the register is reached,
where R81 and R105 refuse an access to PROGRAM (log 35). -/
def Obligations.RegistersInMemory : Prop :=
  ∀ (a v : Word) (s : State), s.mode ≠ .user →
    (∀ n : Fin 16, a = 0xFFE02000#32 + BitVec.ofNat 32 (4 * n.val) →
      memRead a s = .ok (s.evt.get n) ∧ memWrite a v s = .ok (s.setEvt n v)) ∧
    (a = 0xFFE02104#32 → memRead a s = .ok (s.imask.setWidth 32) ∧
      memWrite a v s = .ok (s.setImask ((v.setWidth 16 &&& 0xFFE0#16) ||| 0x001F#16))) ∧
    (a = 0xFFE02108#32 → memRead a s = .ok (s.ipend.setWidth 32) ∧ memWrite a v s = .ok s) ∧
    (a = 0xFFE0210C#32 → memRead a s = .ok (s.ilat.setWidth 32) ∧
      memWrite a v s = (if v.setWidth 16 &&& s.imask &&& 0xFFE0#16 = 0#16
        then .ok (s.setIlat (s.ilat &&& ~~~(v.setWidth 16 &&& 0xFFE0#16))) else .error (.refusal .ilatClearEnabled))) ∧
    (a = 0xFFC0010C#32 → memRead a s = .ok s.sic.imask ∧ memWrite a v s = .ok (s.setSic { s.sic with imask := v })) ∧
    (a = 0xFFC00120#32 → memRead a s = .ok s.sic.isr ∧ memWrite a v s = .ok s) ∧
    let configured := fun c : Sic =>
      if s.sic.imask &&& 0x00FFFFFF#32 = 0#32 then Except.ok (s.setSic c) else Except.error (Stop.refusal .sicConfigUnmasked)
    (a = 0xFFC00110#32 → memRead a s = .ok s.sic.iar0 ∧ memWrite a v s = configured { s.sic with iar0 := v }) ∧
    (a = 0xFFC00114#32 → memRead a s = .ok s.sic.iar1 ∧ memWrite a v s = configured { s.sic with iar1 := v }) ∧
    (a = 0xFFC00118#32 → memRead a s = .ok s.sic.iar2 ∧ memWrite a v s = configured { s.sic with iar2 := v }) ∧
    (a = 0xFFC00124#32 → memRead a s = .ok s.sic.iwr ∧ memWrite a v s = configured { s.sic with iwr := v })

/-- Writing a register and reading it gives the value, for every register but CYCLES, CYCLES2 and SEQSTAT, and leaves every other
register as it reads (10_state.md R21, R24, R35). SP and USP are one register in User mode. THE MODEL'S READINGS in it: a write to
SEQSTAT, which the spec says is not possible, is discarded (log 31), and every bit of SYSCFG is stored and read back (log 18). -/
def Obligations.RegisterWriteAndRead : Prop :=
  ∀ (r : Reg) (v : Word) (s : State),
    (r ≠ .seqstat → r ≠ .cycles → r ≠ .cycles2 → (s.setReg r v).reg r = v) ∧ s.setReg .seqstat v = s ∧
    ∀ q : Reg, q ≠ r → ¬ (s.mode = .user ∧ (q = .usp ∧ r = .g (.p .sp) ∨ q = .g (.p .sp) ∧ r = .usp)) →
      (s.setReg r v).reg q = s.reg q

/-- The push of a register onto data memory: the word below SP, SP, IPEND[4] for RETI, and nothing else; what SP itself stores is
open, which is the model's choice where the spec refuses the form (log 12) (40_stack_and_moves.md R160, R161, R162, R168). -/
def Obligations.PushCompletes : Prop :=
  ∀ (r : Reg) (s : State), ¬ (s.mode = .user ∧ supervisorReg r = true) → s.holdsWord (s.sp - 4) →
    ∃ t, exec (.push r) s = .next t ∧ t.sp = s.sp - 4 ∧
      (r ≠ .g (.p .sp) → t.dataWord (s.sp - 4).toNat = s.reg r) ∧
      keepsMemoryOutside (s.sp - 4).toNat 4 s t ∧
      sameCore ((s.setSp (s.sp - 4)).setIpend (if r = .reti then s.ipend &&& 0xFFEF#16 else s.ipend)) t ∧
      (r ≠ .cycles → t.cycles = s.cycles) ∧ (r ≠ .cycles2 → t.cycles2 = s.cycles2) ∧ goesOn 2 s t

/-- A push at the address of an event vector, outside User mode, writes the vector: the store is at SP - 4 (20_memory.md R94;
40_stack_and_moves.md R160). THE MODEL'S CHOICES in it: the push of SP, which the spec refuses, is run and writes a value that is
open (log 12), and where PROGRAM covers the address the vector is reached, where R105 refuses the store (log 35). -/
def Obligations.PushReachesEventVectors : Prop :=
  ∀ (r : Reg) (n : Fin 16) (s : State), s.mode ≠ .user → s.sp - 4 = 0xFFE02000#32 + BitVec.ofNat 32 (4 * n.val) →
    ∃ t, exec (.push r) s = .next t ∧ t.sp = s.sp - 4 ∧ (r ≠ .g (.p .sp) → t.evt.get n = s.reg r) ∧
      (∀ m : Fin 16, m ≠ n → t.evt.get m = s.evt.get m) ∧ keepsMemory s t ∧ t.imask = s.imask ∧ t.ilat = s.ilat ∧
      t.sic = s.sic ∧ goesOn 2 s t

/-- The pop of a register from data memory: the register, SP, IPEND[4] for RETI, and nothing else (40_stack_and_moves.md R163,
R164, R162; the condition on SYSCFG is 10_state.md R32). What is popped into CYCLES or CYCLES2 has no observable effect (10_state.md
R34). THE MODEL'S CHOICES in it: the pops of CYCLES and CYCLES2, which R163 refuses, are run on a platform that admits them
(log 13); at the own active loop end of the unit a popped loop register belongs to, where 43_loops.md R262 refuses the pop, it is
run on a platform whose loopEndWrite is not refuse (log 17), and elsewhere the unit sees the write by the platform's
loopWriteSeen (log 38); every bit of SYSCFG is stored and read back (log 18). -/
def Obligations.PopCompletes : Prop :=
  ∀ (r : Reg) (s : State), popAdmitted r = true → s.admitsWrite r = true → ¬ (s.mode = .user ∧ supervisorReg r = true) →
    s.holdsWord s.sp → s.writeHasMeaning r (s.dataWord s.sp.toNat) →
    (r = .syscfg → (s.dataWord s.sp.toNat).getLsbD 0 = false ∧ (s.dataWord s.sp.toNat).getLsbD 2 = false) →
    ∃ t, exec (.pop r) s = .next t ∧ t.sp = s.sp + 4 ∧
      (s.freeOfLoopEnd r (s.dataWord s.sp.toNat) ∨ (∀ k, r ≠ .lc k) → r ≠ .cycles → r ≠ .cycles2 →
        t.reg r = s.dataWord s.sp.toNat) ∧ keepsMemory s t ∧
      sameCore (((s.setSp (s.sp + 4)).setReg r (s.dataWord s.sp.toNat)).setIpend
        (if r = .reti then s.ipend ||| 0x0010#16 else s.ipend)) t ∧
      (r ≠ .cycles → t.cycles = s.cycles) ∧ (r ≠ .cycles2 → t.cycles2 = s.cycles2) ∧
      goesOnAfterWrite r (s.dataWord s.sp.toNat) s (s.setReg r (s.dataWord s.sp.toNat)) t

/-- The move between registers: the destination takes the value of the source and nothing else changes, IPEND included
(40_stack_and_moves.md R170, R172). What is moved into CYCLES or CYCLES2 has no observable effect (10_state.md R34). THE MODEL'S
CHOICES in it: the moves into CYCLES and CYCLES2, which R170 does not admit, are run on a platform that admits them (log 13); at
the own active loop end of the unit a written loop register belongs to, where 43_loops.md R262 refuses the move, it is run on a
platform whose loopEndWrite is not refuse (log 17), and elsewhere the unit sees the write by the platform's loopWriteSeen (log
38); every bit of SYSCFG is stored and read back (log 18). -/
def Obligations.MoveCompletes : Prop :=
  ∀ (dst src : Reg) (s : State), moveAdmitted dst src = true → s.admitsWrite dst = true → s.writeHasMeaning dst (s.reg src) →
    ¬ (s.mode = .user ∧ (supervisorReg dst = true ∨ supervisorReg src = true)) →
    (dst = .syscfg → (s.reg src).getLsbD 0 = false ∧ (s.reg src).getLsbD 2 = false) →
    ∃ t, exec (.regMove dst src) s = .next t ∧
      (s.freeOfLoopEnd dst (s.reg src) ∨ (∀ k, dst ≠ .lc k) → dst ≠ .cycles → dst ≠ .cycles2 → t.reg dst = s.reg src) ∧
      sameCore (s.setReg dst (s.reg src)) t ∧ t.ipend = s.ipend ∧ keepsMemory s t ∧
      (src ≠ .cycles → dst ≠ .cycles → t.cycles = s.cycles) ∧ (src ≠ .cycles2 → dst ≠ .cycles2 → t.cycles2 = s.cycles2) ∧
      goesOnAfterWrite dst (s.reg src) s (s.setReg dst (s.reg src)) t

/-- The multiple push onto data memory: its registers in order, Rx to R7 then Py to P5, each at the next lower word, SP below the
last, and nothing else (40_stack_and_moves.md R166). -/
def Obligations.PushMultipleCompletes : Prop :=
  ∀ (x : Option DReg) (y : Option (Fin 6)) (s : State), (x.isSome || y.isSome) = true →
    let rs := multipleRegs x y
    let at_ := fun i : Nat => s.sp - BitVec.ofNat 32 (4 * (i + 1))
    (∀ i < rs.length, s.holdsWord (at_ i)) →
    ∃ t, exec (.pushMultiple x y) s = .next t ∧ t.sp = s.sp - BitVec.ofNat 32 (4 * rs.length) ∧
      (∀ (i : Nat) (h : i < rs.length), t.dataWord (at_ i).toNat = s.greg (rs[i])) ∧
      (∀ b : Nat, (∀ i < rs.length, ¬ ((at_ i).toNat ≤ b ∧ b < (at_ i).toNat + 4)) → t.dataByte b = s.dataByte b) ∧
      sameCore (s.setSp (s.sp - BitVec.ofNat 32 (4 * rs.length))) t ∧ t.cycles = s.cycles ∧ t.cycles2 = s.cycles2 ∧
      goesOn 2 s t

/-- The multiple pop from data memory: the registers of the push in reverse, each from the next higher word, SP above the last,
and nothing else (40_stack_and_moves.md R167). -/
def Obligations.PopMultipleCompletes : Prop :=
  ∀ (x : Option DReg) (y : Option (Fin 6)) (s : State), (x.isSome || y.isSome) = true →
    let rs := (multipleRegs x y).reverse
    let at_ := fun i : Nat => s.sp + BitVec.ofNat 32 (4 * i)
    (∀ i < rs.length, s.holdsWord (at_ i)) →
    ∃ t, exec (.popMultiple x y) s = .next t ∧ t.sp = s.sp + BitVec.ofNat 32 (4 * rs.length) ∧
      (∀ (i : Nat) (h : i < rs.length), t.greg (rs[i]) = s.dataWord (at_ i).toNat) ∧
      (∀ q : GReg, q ∉ rs → q ≠ .p .sp → t.greg q = s.greg q) ∧
      (if s.mode = .user then t.ssp = s.ssp else t.usp = s.usp) ∧ keepsReturns s t ∧ t.seqstat = s.seqstat ∧
      t.syscfg = s.syscfg ∧ t.astat = s.astat ∧ keepsEvents s t ∧ keepsWorld s t ∧ t.cycles = s.cycles ∧
      t.cycles2 = s.cycles2 ∧ keepsMemory s t ∧ goesOn 2 s t

/-- A multiple push followed by the multiple pop of the same registers restores every data and pointer register and SP
(40_stack_and_moves.md R167). -/
def Obligations.PopMultipleUndoesPushMultiple : Prop :=
  ∀ (x : Option DReg) (y : Option (Fin 6)) (s t : State), (x.isSome || y.isSome) = true →
    (∀ i < (multipleRegs x y).length, s.holdsWord (s.sp - BitVec.ofNat 32 (4 * (i + 1)))) →
    exec (.pushMultiple x y) s = .next t → ∃ u, exec (.popMultiple x y) t = .next u ∧ keepsGeneral s u

/-- A push or a pop at an address of PROGRAM is refused, one where nothing is defined is stuck (20_memory.md R81, R98). THE MODEL'S
CHOICES in it: one byte of PROGRAM in the word is enough for the refusal (log 5), and the push of SP, a form the spec refuses,
is a push like the others (log 12); so are the pops of CYCLES and CYCLES2 among the pops on a platform that admits them (log 13). -/
def Obligations.StackOutsideDataMemoryStops : Prop :=
  ∀ (r : Reg) (s : State) (a : Word), ¬ (s.mode = .user ∧ supervisorReg r = true) → a.extractLsb' 0 2 = 0#2 → mmrAt a = none →
    ((∃ i : Fin 4, s.isProgram (a.toNat + i.val) = true) →
      (s.sp - 4 = a → exec (.push r) s = .refused .programAccess) ∧
      (s.sp = a → popAdmitted r = true → s.admitsWrite r = true → exec (.pop r) s = .refused .programAccess)) ∧
    ((∀ i : Fin 4, s.isProgram (a.toNat + i.val) = false) → (∃ i : Fin 4, s.isRam (a.toNat + i.val) = false) →
      (s.sp - 4 = a → exec (.push r) s = .fault .unmappedData) ∧
      (s.sp = a → popAdmitted r = true → s.admitsWrite r = true → exec (.pop r) s = .fault .unmappedData))

/-- Forms of the stack statements, moves and LSETUP that the spec refuses, refused by name: SP or SEQSTAT popped, a move between
two registers outside the R and P files or into SEQSTAT, a multiple push or pop without a register, LSETUP with degenerate
offsets, SYSCFG given bit 0 or bit 2 (40_stack_and_moves.md R163, R170; 30_encoding.md R129; 43_loops.md R266; 10_state.md R32); and
on a platform whose loopEndWrite is refuse a loop register written by a move, a pop or LSETUP at its unit's own active loop end
(43_loops.md R262; a write of the instruction's own address to LB from elsewhere is an ordinary one). NOT among them, though rules of the spec refuse them: the push of SP, which runs (R160; log 12), and the
pops and moves into CYCLES and CYCLES2, refused only on a platform that does not admit them (R163, R170 against R21, R34; log 13).
THE MODEL'S CHOICE in it: a refused form is refused in User mode too, before its privilege is checked (log 29). -/
def Obligations.FormsTheSpecRefuses : Prop :=
  ∀ s : State,
    (∀ r : Reg, r = .g (.p .sp) ∨ r = .seqstat → exec (.pop r) s = .refused .popDestination) ∧
    (∀ dst src : Reg, (isGeneral dst = false ∧ isGeneral src = false) ∨ dst = .seqstat →
      exec (.regMove dst src) s = .refused .moveForm) ∧
    exec (.pushMultiple none none) s = .refused .emptyMultiple ∧ exec (.popMultiple none none) s = .refused .emptyMultiple ∧
    (∀ (k : LoopIdx) (soff : BitVec 4) (p : PReg) (eoff : BitVec 10),
      2 * soff.toNat < 4 ∨ eoff.toNat < soff.toNat → exec (.lsetup k soff p eoff) s = .refused .lsetupOffsets) ∧
    (∀ g : GReg, s.mode ≠ .user → ((s.greg g).getLsbD 0 || (s.greg g).getLsbD 2) = true →
      exec (.regMove .syscfg (.g g)) s = .refused .syscfgMode) ∧
    (s.holdsWord s.sp → s.mode ≠ .user → ((s.dataWord s.sp.toNat).getLsbD 0 || (s.dataWord s.sp.toNat).getLsbD 2) = true →
      exec (.pop .syscfg) s = .refused .syscfgMode) ∧
    (s.plat.counterWrite = .refuse → ∀ r : Reg, r = .cycles ∨ r = .cycles2 →
      exec (.pop r) s = .refused .popDestination ∧ ∀ src : Reg, exec (.regMove r src) s = .refused .moveForm) ∧
    (s.plat.loopEndWrite = .refuse → ∀ (r : Reg) (k : LoopIdx), ofLoop r k →
      (∀ g : GReg, ¬ s.freeOfLoopEnd r (s.greg g) → exec (.regMove r (.g g)) s = .refused .loopEndWrite) ∧
      (s.holdsWord s.sp → ¬ s.freeOfLoopEnd r (s.dataWord s.sp.toNat) → exec (.pop r) s = .refused .loopEndWrite) ∧
      ∀ (soff : BitVec 4) (p : PReg) (eoff : BitVec 10), 2 ≤ soff.toNat → soff.toNat ≤ eoff.toNat →
        s.pc = (s.loop k).lb → (s.loop k).lc ≠ 0 ∨ s.preg p ≠ 0 →
        exec (.lsetup k soff p eoff) s = .refused .loopEndWrite)

/-! ## RAISE, CLI, STI, IDLE and the returns from events -/

/-- CLI and STI outside User mode: CLI gives Rd the value of IMASK and clears IMASK[15:5]; STI gives IMASK[15:5] the bits of Rd;
IMASK[4:0] is 1 and nothing else changes (44_event_instructions.md R290, R292). -/
def Obligations.CliAndStiComplete : Prop :=
  ∀ (d : DReg) (s : State), s.mode ≠ .user →
    (∃ t, exec (.cli d) s = .next t ∧ t.dreg d = s.imask.setWidth 32 ∧ t.imask = 0x001F#16 ∧
      sameButFlow ((s.setD d (s.imask.setWidth 32)).setImask 0x001F#16) t ∧ goesOn 2 s t) ∧
    (∃ t, exec (.sti d) s = .next t ∧ t.imask = (((s.dreg d).setWidth 16 &&& 0xFFE0#16) ||| 0x001F#16) ∧
      sameButFlow (s.setImask (((s.dreg d).setWidth 16 &&& 0xFFE0#16) ||| 0x001F#16)) t ∧ goesOn 2 s t)

/-- RAISE of an event it can force, outside User mode: the bit of ILAT, HWERRCAUSE for 5, and nothing else; RAISE 0, 3 and 4 are
refused, and so is RAISE 1 where the parameter SOFT_RESET is refuse (44_event_instructions.md R280, R281, R282, R283). -/
def Obligations.RaiseCompletes : Prop :=
  ∀ (n : BitVec 4) (s : State), s.mode ≠ .user →
    if n = 0 ∨ n = 3 ∨ n = 4 then exec (.raise n) s = .refused .raiseOperand
    else if n = 1 ∧ s.plat.softReset = .refuse then exec (.raise n) s = .refused .softReset
    else ∃ t, exec (.raise n) s = .next t ∧ t.ilat = s.ilat ||| (1#16 <<< n.toNat) ∧
      sameButFlow ((s.setIlat (s.ilat ||| (1#16 <<< n.toNat))).setSeqstat
        (if n = 5 then (s.seqstat &&& 0xFFF83FFF#32) ||| 0x00060000#32 else s.seqstat)) t ∧ goesOn 2 s t

/-- IDLE outside User mode: the core waits, pc is past the instruction, nothing else changes (44_event_instructions.md R310). -/
def Obligations.IdleCompletes : Prop :=
  ∀ s : State, s.mode ≠ .user → ∃ t, exec .idle s = .next t ∧ t.idle = true ∧ sameButFlow (s.setIdle true) t ∧ goesOn 2 s t

/-- The returns from events, each at its own level: one bit of IPEND is cleared, RTI clears IPEND[4] as well, execution continues
at the return register, nothing else changes (44_event_instructions.md R294, R296 to R299), unless the value refuse of
LOOP_END_TRANSFER leaves the transfer without a meaning (43_loops.md R259). -/
def Obligations.EventReturnsComplete : Prop :=
  ∀ s : State, s.transferHasMeaning →
    (∀ n : Fin 16, n = 1 ∨ 5 ≤ n.val → s.servicing n → ∃ t, exec .rti s = .next t ∧ goesTo s.reti s t ∧
      sameButFlow (s.setIpend (s.ipend &&& ~~~((1#16 <<< n.val) ||| 0x0010#16))) t) ∧
    (s.servicing 3 → ∃ t, exec .rtx s = .next t ∧ goesTo s.retx s t ∧ sameButFlow (s.setIpend (s.ipend &&& 0xFFF7#16)) t) ∧
    (s.servicing 2 → ∃ t, exec .rtn s = .next t ∧ goesTo s.retn s t ∧ sameButFlow (s.setIpend (s.ipend &&& 0xFFFB#16)) t) ∧
    (s.servicing 0 → ∃ t, exec .rte s = .next t ∧ goesTo s.rete s t ∧ sameButFlow (s.setIpend (s.ipend &&& 0xFFFE#16)) t)

/-- A return instruction at a level that is not its own is refused (44_event_instructions.md R302, the spec's decision D25). -/
def Obligations.WrongReturnIsRefused : Prop :=
  ∀ (s : State) (n : Fin 16), s.servicing n →
    (n = 0 ∨ n = 2 ∨ n = 3 → exec .rti s = .refused .wrongReturn) ∧
    (n ≠ 3 → exec .rtx s = .refused .wrongReturn) ∧ (n ≠ 2 → exec .rtn s = .refused .wrongReturn) ∧
    (n ≠ 0 → exec .rte s = .refused .wrongReturn)
end

