-- ==== Sys2Proof/Laws/State.lean ====
section
/-! SUPPORT. One lemma per field per update of State, so that no later proof unfolds a record update. -/

namespace Sys2Proof.Machine

@[simp] theorem State.setPc_pc (s : State) (v : Word) : (s.setPc v).pc = v := rfl
@[simp] theorem State.setPc_d (s : State) (v : Word) : (s.setPc v).d = s.d := rfl
@[simp] theorem State.setPc_p (s : State) (v : Word) : (s.setPc v).p = s.p := rfl
@[simp] theorem State.setPc_ssp (s : State) (v : Word) : (s.setPc v).ssp = s.ssp := rfl
@[simp] theorem State.setPc_usp (s : State) (v : Word) : (s.setPc v).usp = s.usp := rfl
@[simp] theorem State.setPc_fp (s : State) (v : Word) : (s.setPc v).fp = s.fp := rfl
@[simp] theorem State.setPc_rets (s : State) (v : Word) : (s.setPc v).rets = s.rets := rfl
@[simp] theorem State.setPc_reti (s : State) (v : Word) : (s.setPc v).reti = s.reti := rfl
@[simp] theorem State.setPc_retx (s : State) (v : Word) : (s.setPc v).retx = s.retx := rfl
@[simp] theorem State.setPc_retn (s : State) (v : Word) : (s.setPc v).retn = s.retn := rfl
@[simp] theorem State.setPc_rete (s : State) (v : Word) : (s.setPc v).rete = s.rete := rfl
@[simp] theorem State.setPc_loop0 (s : State) (v : Word) : (s.setPc v).loop0 = s.loop0 := rfl
@[simp] theorem State.setPc_loop1 (s : State) (v : Word) : (s.setPc v).loop1 = s.loop1 := rfl
@[simp] theorem State.setPc_seqstat (s : State) (v : Word) : (s.setPc v).seqstat = s.seqstat := rfl
@[simp] theorem State.setPc_syscfg (s : State) (v : Word) : (s.setPc v).syscfg = s.syscfg := rfl
@[simp] theorem State.setPc_cycles (s : State) (v : Word) : (s.setPc v).cycles = s.cycles := rfl
@[simp] theorem State.setPc_cycles2 (s : State) (v : Word) : (s.setPc v).cycles2 = s.cycles2 := rfl
@[simp] theorem State.setPc_astat (s : State) (v : Word) : (s.setPc v).astat = s.astat := rfl
@[simp] theorem State.setPc_imask (s : State) (v : Word) : (s.setPc v).imask = s.imask := rfl
@[simp] theorem State.setPc_ilat (s : State) (v : Word) : (s.setPc v).ilat = s.ilat := rfl
@[simp] theorem State.setPc_ipend (s : State) (v : Word) : (s.setPc v).ipend = s.ipend := rfl
@[simp] theorem State.setPc_evt (s : State) (v : Word) : (s.setPc v).evt = s.evt := rfl
@[simp] theorem State.setPc_sic (s : State) (v : Word) : (s.setPc v).sic = s.sic := rfl
@[simp] theorem State.setPc_idle (s : State) (v : Word) : (s.setPc v).idle = s.idle := rfl
@[simp] theorem State.setPc_doubleFault (s : State) (v : Word) : (s.setPc v).doubleFault = s.doubleFault := rfl
@[simp] theorem State.setPc_mem (s : State) (v : Word) : (s.setPc v).mem = s.mem := rfl
@[simp] theorem State.setPc_memEpoch (s : State) (v : Word) : (s.setPc v).memEpoch = s.memEpoch := rfl
@[simp] theorem State.setPc_plat (s : State) (v : Word) : (s.setPc v).plat = s.plat := rfl
@[simp] theorem State.setPc_env (s : State) (v : Word) : (s.setPc v).env = s.env := rfl
@[simp] theorem State.setPc_draws (s : State) (v : Word) : (s.setPc v).draws = s.draws := rfl

@[simp] theorem State.setSsp_pc (s : State) (v : Word) : (s.setSsp v).pc = s.pc := rfl
@[simp] theorem State.setSsp_d (s : State) (v : Word) : (s.setSsp v).d = s.d := rfl
@[simp] theorem State.setSsp_p (s : State) (v : Word) : (s.setSsp v).p = s.p := rfl
@[simp] theorem State.setSsp_ssp (s : State) (v : Word) : (s.setSsp v).ssp = v := rfl
@[simp] theorem State.setSsp_usp (s : State) (v : Word) : (s.setSsp v).usp = s.usp := rfl
@[simp] theorem State.setSsp_fp (s : State) (v : Word) : (s.setSsp v).fp = s.fp := rfl
@[simp] theorem State.setSsp_rets (s : State) (v : Word) : (s.setSsp v).rets = s.rets := rfl
@[simp] theorem State.setSsp_reti (s : State) (v : Word) : (s.setSsp v).reti = s.reti := rfl
@[simp] theorem State.setSsp_retx (s : State) (v : Word) : (s.setSsp v).retx = s.retx := rfl
@[simp] theorem State.setSsp_retn (s : State) (v : Word) : (s.setSsp v).retn = s.retn := rfl
@[simp] theorem State.setSsp_rete (s : State) (v : Word) : (s.setSsp v).rete = s.rete := rfl
@[simp] theorem State.setSsp_loop0 (s : State) (v : Word) : (s.setSsp v).loop0 = s.loop0 := rfl
@[simp] theorem State.setSsp_loop1 (s : State) (v : Word) : (s.setSsp v).loop1 = s.loop1 := rfl
@[simp] theorem State.setSsp_seqstat (s : State) (v : Word) : (s.setSsp v).seqstat = s.seqstat := rfl
@[simp] theorem State.setSsp_syscfg (s : State) (v : Word) : (s.setSsp v).syscfg = s.syscfg := rfl
@[simp] theorem State.setSsp_cycles (s : State) (v : Word) : (s.setSsp v).cycles = s.cycles := rfl
@[simp] theorem State.setSsp_cycles2 (s : State) (v : Word) : (s.setSsp v).cycles2 = s.cycles2 := rfl
@[simp] theorem State.setSsp_astat (s : State) (v : Word) : (s.setSsp v).astat = s.astat := rfl
@[simp] theorem State.setSsp_imask (s : State) (v : Word) : (s.setSsp v).imask = s.imask := rfl
@[simp] theorem State.setSsp_ilat (s : State) (v : Word) : (s.setSsp v).ilat = s.ilat := rfl
@[simp] theorem State.setSsp_ipend (s : State) (v : Word) : (s.setSsp v).ipend = s.ipend := rfl
@[simp] theorem State.setSsp_evt (s : State) (v : Word) : (s.setSsp v).evt = s.evt := rfl
@[simp] theorem State.setSsp_sic (s : State) (v : Word) : (s.setSsp v).sic = s.sic := rfl
@[simp] theorem State.setSsp_idle (s : State) (v : Word) : (s.setSsp v).idle = s.idle := rfl
@[simp] theorem State.setSsp_doubleFault (s : State) (v : Word) : (s.setSsp v).doubleFault = s.doubleFault := rfl
@[simp] theorem State.setSsp_mem (s : State) (v : Word) : (s.setSsp v).mem = s.mem := rfl
@[simp] theorem State.setSsp_memEpoch (s : State) (v : Word) : (s.setSsp v).memEpoch = s.memEpoch := rfl
@[simp] theorem State.setSsp_plat (s : State) (v : Word) : (s.setSsp v).plat = s.plat := rfl
@[simp] theorem State.setSsp_env (s : State) (v : Word) : (s.setSsp v).env = s.env := rfl
@[simp] theorem State.setSsp_draws (s : State) (v : Word) : (s.setSsp v).draws = s.draws := rfl

@[simp] theorem State.setUsp_pc (s : State) (v : Word) : (s.setUsp v).pc = s.pc := rfl
@[simp] theorem State.setUsp_d (s : State) (v : Word) : (s.setUsp v).d = s.d := rfl
@[simp] theorem State.setUsp_p (s : State) (v : Word) : (s.setUsp v).p = s.p := rfl
@[simp] theorem State.setUsp_ssp (s : State) (v : Word) : (s.setUsp v).ssp = s.ssp := rfl
@[simp] theorem State.setUsp_usp (s : State) (v : Word) : (s.setUsp v).usp = v := rfl
@[simp] theorem State.setUsp_fp (s : State) (v : Word) : (s.setUsp v).fp = s.fp := rfl
@[simp] theorem State.setUsp_rets (s : State) (v : Word) : (s.setUsp v).rets = s.rets := rfl
@[simp] theorem State.setUsp_reti (s : State) (v : Word) : (s.setUsp v).reti = s.reti := rfl
@[simp] theorem State.setUsp_retx (s : State) (v : Word) : (s.setUsp v).retx = s.retx := rfl
@[simp] theorem State.setUsp_retn (s : State) (v : Word) : (s.setUsp v).retn = s.retn := rfl
@[simp] theorem State.setUsp_rete (s : State) (v : Word) : (s.setUsp v).rete = s.rete := rfl
@[simp] theorem State.setUsp_loop0 (s : State) (v : Word) : (s.setUsp v).loop0 = s.loop0 := rfl
@[simp] theorem State.setUsp_loop1 (s : State) (v : Word) : (s.setUsp v).loop1 = s.loop1 := rfl
@[simp] theorem State.setUsp_seqstat (s : State) (v : Word) : (s.setUsp v).seqstat = s.seqstat := rfl
@[simp] theorem State.setUsp_syscfg (s : State) (v : Word) : (s.setUsp v).syscfg = s.syscfg := rfl
@[simp] theorem State.setUsp_cycles (s : State) (v : Word) : (s.setUsp v).cycles = s.cycles := rfl
@[simp] theorem State.setUsp_cycles2 (s : State) (v : Word) : (s.setUsp v).cycles2 = s.cycles2 := rfl
@[simp] theorem State.setUsp_astat (s : State) (v : Word) : (s.setUsp v).astat = s.astat := rfl
@[simp] theorem State.setUsp_imask (s : State) (v : Word) : (s.setUsp v).imask = s.imask := rfl
@[simp] theorem State.setUsp_ilat (s : State) (v : Word) : (s.setUsp v).ilat = s.ilat := rfl
@[simp] theorem State.setUsp_ipend (s : State) (v : Word) : (s.setUsp v).ipend = s.ipend := rfl
@[simp] theorem State.setUsp_evt (s : State) (v : Word) : (s.setUsp v).evt = s.evt := rfl
@[simp] theorem State.setUsp_sic (s : State) (v : Word) : (s.setUsp v).sic = s.sic := rfl
@[simp] theorem State.setUsp_idle (s : State) (v : Word) : (s.setUsp v).idle = s.idle := rfl
@[simp] theorem State.setUsp_doubleFault (s : State) (v : Word) : (s.setUsp v).doubleFault = s.doubleFault := rfl
@[simp] theorem State.setUsp_mem (s : State) (v : Word) : (s.setUsp v).mem = s.mem := rfl
@[simp] theorem State.setUsp_memEpoch (s : State) (v : Word) : (s.setUsp v).memEpoch = s.memEpoch := rfl
@[simp] theorem State.setUsp_plat (s : State) (v : Word) : (s.setUsp v).plat = s.plat := rfl
@[simp] theorem State.setUsp_env (s : State) (v : Word) : (s.setUsp v).env = s.env := rfl
@[simp] theorem State.setUsp_draws (s : State) (v : Word) : (s.setUsp v).draws = s.draws := rfl

@[simp] theorem State.setFp_pc (s : State) (v : Word) : (s.setFp v).pc = s.pc := rfl
@[simp] theorem State.setFp_d (s : State) (v : Word) : (s.setFp v).d = s.d := rfl
@[simp] theorem State.setFp_p (s : State) (v : Word) : (s.setFp v).p = s.p := rfl
@[simp] theorem State.setFp_ssp (s : State) (v : Word) : (s.setFp v).ssp = s.ssp := rfl
@[simp] theorem State.setFp_usp (s : State) (v : Word) : (s.setFp v).usp = s.usp := rfl
@[simp] theorem State.setFp_fp (s : State) (v : Word) : (s.setFp v).fp = v := rfl
@[simp] theorem State.setFp_rets (s : State) (v : Word) : (s.setFp v).rets = s.rets := rfl
@[simp] theorem State.setFp_reti (s : State) (v : Word) : (s.setFp v).reti = s.reti := rfl
@[simp] theorem State.setFp_retx (s : State) (v : Word) : (s.setFp v).retx = s.retx := rfl
@[simp] theorem State.setFp_retn (s : State) (v : Word) : (s.setFp v).retn = s.retn := rfl
@[simp] theorem State.setFp_rete (s : State) (v : Word) : (s.setFp v).rete = s.rete := rfl
@[simp] theorem State.setFp_loop0 (s : State) (v : Word) : (s.setFp v).loop0 = s.loop0 := rfl
@[simp] theorem State.setFp_loop1 (s : State) (v : Word) : (s.setFp v).loop1 = s.loop1 := rfl
@[simp] theorem State.setFp_seqstat (s : State) (v : Word) : (s.setFp v).seqstat = s.seqstat := rfl
@[simp] theorem State.setFp_syscfg (s : State) (v : Word) : (s.setFp v).syscfg = s.syscfg := rfl
@[simp] theorem State.setFp_cycles (s : State) (v : Word) : (s.setFp v).cycles = s.cycles := rfl
@[simp] theorem State.setFp_cycles2 (s : State) (v : Word) : (s.setFp v).cycles2 = s.cycles2 := rfl
@[simp] theorem State.setFp_astat (s : State) (v : Word) : (s.setFp v).astat = s.astat := rfl
@[simp] theorem State.setFp_imask (s : State) (v : Word) : (s.setFp v).imask = s.imask := rfl
@[simp] theorem State.setFp_ilat (s : State) (v : Word) : (s.setFp v).ilat = s.ilat := rfl
@[simp] theorem State.setFp_ipend (s : State) (v : Word) : (s.setFp v).ipend = s.ipend := rfl
@[simp] theorem State.setFp_evt (s : State) (v : Word) : (s.setFp v).evt = s.evt := rfl
@[simp] theorem State.setFp_sic (s : State) (v : Word) : (s.setFp v).sic = s.sic := rfl
@[simp] theorem State.setFp_idle (s : State) (v : Word) : (s.setFp v).idle = s.idle := rfl
@[simp] theorem State.setFp_doubleFault (s : State) (v : Word) : (s.setFp v).doubleFault = s.doubleFault := rfl
@[simp] theorem State.setFp_mem (s : State) (v : Word) : (s.setFp v).mem = s.mem := rfl
@[simp] theorem State.setFp_memEpoch (s : State) (v : Word) : (s.setFp v).memEpoch = s.memEpoch := rfl
@[simp] theorem State.setFp_plat (s : State) (v : Word) : (s.setFp v).plat = s.plat := rfl
@[simp] theorem State.setFp_env (s : State) (v : Word) : (s.setFp v).env = s.env := rfl
@[simp] theorem State.setFp_draws (s : State) (v : Word) : (s.setFp v).draws = s.draws := rfl

@[simp] theorem State.setRets_pc (s : State) (v : Word) : (s.setRets v).pc = s.pc := rfl
@[simp] theorem State.setRets_d (s : State) (v : Word) : (s.setRets v).d = s.d := rfl
@[simp] theorem State.setRets_p (s : State) (v : Word) : (s.setRets v).p = s.p := rfl
@[simp] theorem State.setRets_ssp (s : State) (v : Word) : (s.setRets v).ssp = s.ssp := rfl
@[simp] theorem State.setRets_usp (s : State) (v : Word) : (s.setRets v).usp = s.usp := rfl
@[simp] theorem State.setRets_fp (s : State) (v : Word) : (s.setRets v).fp = s.fp := rfl
@[simp] theorem State.setRets_rets (s : State) (v : Word) : (s.setRets v).rets = v := rfl
@[simp] theorem State.setRets_reti (s : State) (v : Word) : (s.setRets v).reti = s.reti := rfl
@[simp] theorem State.setRets_retx (s : State) (v : Word) : (s.setRets v).retx = s.retx := rfl
@[simp] theorem State.setRets_retn (s : State) (v : Word) : (s.setRets v).retn = s.retn := rfl
@[simp] theorem State.setRets_rete (s : State) (v : Word) : (s.setRets v).rete = s.rete := rfl
@[simp] theorem State.setRets_loop0 (s : State) (v : Word) : (s.setRets v).loop0 = s.loop0 := rfl
@[simp] theorem State.setRets_loop1 (s : State) (v : Word) : (s.setRets v).loop1 = s.loop1 := rfl
@[simp] theorem State.setRets_seqstat (s : State) (v : Word) : (s.setRets v).seqstat = s.seqstat := rfl
@[simp] theorem State.setRets_syscfg (s : State) (v : Word) : (s.setRets v).syscfg = s.syscfg := rfl
@[simp] theorem State.setRets_cycles (s : State) (v : Word) : (s.setRets v).cycles = s.cycles := rfl
@[simp] theorem State.setRets_cycles2 (s : State) (v : Word) : (s.setRets v).cycles2 = s.cycles2 := rfl
@[simp] theorem State.setRets_astat (s : State) (v : Word) : (s.setRets v).astat = s.astat := rfl
@[simp] theorem State.setRets_imask (s : State) (v : Word) : (s.setRets v).imask = s.imask := rfl
@[simp] theorem State.setRets_ilat (s : State) (v : Word) : (s.setRets v).ilat = s.ilat := rfl
@[simp] theorem State.setRets_ipend (s : State) (v : Word) : (s.setRets v).ipend = s.ipend := rfl
@[simp] theorem State.setRets_evt (s : State) (v : Word) : (s.setRets v).evt = s.evt := rfl
@[simp] theorem State.setRets_sic (s : State) (v : Word) : (s.setRets v).sic = s.sic := rfl
@[simp] theorem State.setRets_idle (s : State) (v : Word) : (s.setRets v).idle = s.idle := rfl
@[simp] theorem State.setRets_doubleFault (s : State) (v : Word) : (s.setRets v).doubleFault = s.doubleFault := rfl
@[simp] theorem State.setRets_mem (s : State) (v : Word) : (s.setRets v).mem = s.mem := rfl
@[simp] theorem State.setRets_memEpoch (s : State) (v : Word) : (s.setRets v).memEpoch = s.memEpoch := rfl
@[simp] theorem State.setRets_plat (s : State) (v : Word) : (s.setRets v).plat = s.plat := rfl
@[simp] theorem State.setRets_env (s : State) (v : Word) : (s.setRets v).env = s.env := rfl
@[simp] theorem State.setRets_draws (s : State) (v : Word) : (s.setRets v).draws = s.draws := rfl

@[simp] theorem State.setReti_pc (s : State) (v : Word) : (s.setReti v).pc = s.pc := rfl
@[simp] theorem State.setReti_d (s : State) (v : Word) : (s.setReti v).d = s.d := rfl
@[simp] theorem State.setReti_p (s : State) (v : Word) : (s.setReti v).p = s.p := rfl
@[simp] theorem State.setReti_ssp (s : State) (v : Word) : (s.setReti v).ssp = s.ssp := rfl
@[simp] theorem State.setReti_usp (s : State) (v : Word) : (s.setReti v).usp = s.usp := rfl
@[simp] theorem State.setReti_fp (s : State) (v : Word) : (s.setReti v).fp = s.fp := rfl
@[simp] theorem State.setReti_rets (s : State) (v : Word) : (s.setReti v).rets = s.rets := rfl
@[simp] theorem State.setReti_reti (s : State) (v : Word) : (s.setReti v).reti = v := rfl
@[simp] theorem State.setReti_retx (s : State) (v : Word) : (s.setReti v).retx = s.retx := rfl
@[simp] theorem State.setReti_retn (s : State) (v : Word) : (s.setReti v).retn = s.retn := rfl
@[simp] theorem State.setReti_rete (s : State) (v : Word) : (s.setReti v).rete = s.rete := rfl
@[simp] theorem State.setReti_loop0 (s : State) (v : Word) : (s.setReti v).loop0 = s.loop0 := rfl
@[simp] theorem State.setReti_loop1 (s : State) (v : Word) : (s.setReti v).loop1 = s.loop1 := rfl
@[simp] theorem State.setReti_seqstat (s : State) (v : Word) : (s.setReti v).seqstat = s.seqstat := rfl
@[simp] theorem State.setReti_syscfg (s : State) (v : Word) : (s.setReti v).syscfg = s.syscfg := rfl
@[simp] theorem State.setReti_cycles (s : State) (v : Word) : (s.setReti v).cycles = s.cycles := rfl
@[simp] theorem State.setReti_cycles2 (s : State) (v : Word) : (s.setReti v).cycles2 = s.cycles2 := rfl
@[simp] theorem State.setReti_astat (s : State) (v : Word) : (s.setReti v).astat = s.astat := rfl
@[simp] theorem State.setReti_imask (s : State) (v : Word) : (s.setReti v).imask = s.imask := rfl
@[simp] theorem State.setReti_ilat (s : State) (v : Word) : (s.setReti v).ilat = s.ilat := rfl
@[simp] theorem State.setReti_ipend (s : State) (v : Word) : (s.setReti v).ipend = s.ipend := rfl
@[simp] theorem State.setReti_evt (s : State) (v : Word) : (s.setReti v).evt = s.evt := rfl
@[simp] theorem State.setReti_sic (s : State) (v : Word) : (s.setReti v).sic = s.sic := rfl
@[simp] theorem State.setReti_idle (s : State) (v : Word) : (s.setReti v).idle = s.idle := rfl
@[simp] theorem State.setReti_doubleFault (s : State) (v : Word) : (s.setReti v).doubleFault = s.doubleFault := rfl
@[simp] theorem State.setReti_mem (s : State) (v : Word) : (s.setReti v).mem = s.mem := rfl
@[simp] theorem State.setReti_memEpoch (s : State) (v : Word) : (s.setReti v).memEpoch = s.memEpoch := rfl
@[simp] theorem State.setReti_plat (s : State) (v : Word) : (s.setReti v).plat = s.plat := rfl
@[simp] theorem State.setReti_env (s : State) (v : Word) : (s.setReti v).env = s.env := rfl
@[simp] theorem State.setReti_draws (s : State) (v : Word) : (s.setReti v).draws = s.draws := rfl

@[simp] theorem State.setRetx_pc (s : State) (v : Word) : (s.setRetx v).pc = s.pc := rfl
@[simp] theorem State.setRetx_d (s : State) (v : Word) : (s.setRetx v).d = s.d := rfl
@[simp] theorem State.setRetx_p (s : State) (v : Word) : (s.setRetx v).p = s.p := rfl
@[simp] theorem State.setRetx_ssp (s : State) (v : Word) : (s.setRetx v).ssp = s.ssp := rfl
@[simp] theorem State.setRetx_usp (s : State) (v : Word) : (s.setRetx v).usp = s.usp := rfl
@[simp] theorem State.setRetx_fp (s : State) (v : Word) : (s.setRetx v).fp = s.fp := rfl
@[simp] theorem State.setRetx_rets (s : State) (v : Word) : (s.setRetx v).rets = s.rets := rfl
@[simp] theorem State.setRetx_reti (s : State) (v : Word) : (s.setRetx v).reti = s.reti := rfl
@[simp] theorem State.setRetx_retx (s : State) (v : Word) : (s.setRetx v).retx = v := rfl
@[simp] theorem State.setRetx_retn (s : State) (v : Word) : (s.setRetx v).retn = s.retn := rfl
@[simp] theorem State.setRetx_rete (s : State) (v : Word) : (s.setRetx v).rete = s.rete := rfl
@[simp] theorem State.setRetx_loop0 (s : State) (v : Word) : (s.setRetx v).loop0 = s.loop0 := rfl
@[simp] theorem State.setRetx_loop1 (s : State) (v : Word) : (s.setRetx v).loop1 = s.loop1 := rfl
@[simp] theorem State.setRetx_seqstat (s : State) (v : Word) : (s.setRetx v).seqstat = s.seqstat := rfl
@[simp] theorem State.setRetx_syscfg (s : State) (v : Word) : (s.setRetx v).syscfg = s.syscfg := rfl
@[simp] theorem State.setRetx_cycles (s : State) (v : Word) : (s.setRetx v).cycles = s.cycles := rfl
@[simp] theorem State.setRetx_cycles2 (s : State) (v : Word) : (s.setRetx v).cycles2 = s.cycles2 := rfl
@[simp] theorem State.setRetx_astat (s : State) (v : Word) : (s.setRetx v).astat = s.astat := rfl
@[simp] theorem State.setRetx_imask (s : State) (v : Word) : (s.setRetx v).imask = s.imask := rfl
@[simp] theorem State.setRetx_ilat (s : State) (v : Word) : (s.setRetx v).ilat = s.ilat := rfl
@[simp] theorem State.setRetx_ipend (s : State) (v : Word) : (s.setRetx v).ipend = s.ipend := rfl
@[simp] theorem State.setRetx_evt (s : State) (v : Word) : (s.setRetx v).evt = s.evt := rfl
@[simp] theorem State.setRetx_sic (s : State) (v : Word) : (s.setRetx v).sic = s.sic := rfl
@[simp] theorem State.setRetx_idle (s : State) (v : Word) : (s.setRetx v).idle = s.idle := rfl
@[simp] theorem State.setRetx_doubleFault (s : State) (v : Word) : (s.setRetx v).doubleFault = s.doubleFault := rfl
@[simp] theorem State.setRetx_mem (s : State) (v : Word) : (s.setRetx v).mem = s.mem := rfl
@[simp] theorem State.setRetx_memEpoch (s : State) (v : Word) : (s.setRetx v).memEpoch = s.memEpoch := rfl
@[simp] theorem State.setRetx_plat (s : State) (v : Word) : (s.setRetx v).plat = s.plat := rfl
@[simp] theorem State.setRetx_env (s : State) (v : Word) : (s.setRetx v).env = s.env := rfl
@[simp] theorem State.setRetx_draws (s : State) (v : Word) : (s.setRetx v).draws = s.draws := rfl

@[simp] theorem State.setRetn_pc (s : State) (v : Word) : (s.setRetn v).pc = s.pc := rfl
@[simp] theorem State.setRetn_d (s : State) (v : Word) : (s.setRetn v).d = s.d := rfl
@[simp] theorem State.setRetn_p (s : State) (v : Word) : (s.setRetn v).p = s.p := rfl
@[simp] theorem State.setRetn_ssp (s : State) (v : Word) : (s.setRetn v).ssp = s.ssp := rfl
@[simp] theorem State.setRetn_usp (s : State) (v : Word) : (s.setRetn v).usp = s.usp := rfl
@[simp] theorem State.setRetn_fp (s : State) (v : Word) : (s.setRetn v).fp = s.fp := rfl
@[simp] theorem State.setRetn_rets (s : State) (v : Word) : (s.setRetn v).rets = s.rets := rfl
@[simp] theorem State.setRetn_reti (s : State) (v : Word) : (s.setRetn v).reti = s.reti := rfl
@[simp] theorem State.setRetn_retx (s : State) (v : Word) : (s.setRetn v).retx = s.retx := rfl
@[simp] theorem State.setRetn_retn (s : State) (v : Word) : (s.setRetn v).retn = v := rfl
@[simp] theorem State.setRetn_rete (s : State) (v : Word) : (s.setRetn v).rete = s.rete := rfl
@[simp] theorem State.setRetn_loop0 (s : State) (v : Word) : (s.setRetn v).loop0 = s.loop0 := rfl
@[simp] theorem State.setRetn_loop1 (s : State) (v : Word) : (s.setRetn v).loop1 = s.loop1 := rfl
@[simp] theorem State.setRetn_seqstat (s : State) (v : Word) : (s.setRetn v).seqstat = s.seqstat := rfl
@[simp] theorem State.setRetn_syscfg (s : State) (v : Word) : (s.setRetn v).syscfg = s.syscfg := rfl
@[simp] theorem State.setRetn_cycles (s : State) (v : Word) : (s.setRetn v).cycles = s.cycles := rfl
@[simp] theorem State.setRetn_cycles2 (s : State) (v : Word) : (s.setRetn v).cycles2 = s.cycles2 := rfl
@[simp] theorem State.setRetn_astat (s : State) (v : Word) : (s.setRetn v).astat = s.astat := rfl
@[simp] theorem State.setRetn_imask (s : State) (v : Word) : (s.setRetn v).imask = s.imask := rfl
@[simp] theorem State.setRetn_ilat (s : State) (v : Word) : (s.setRetn v).ilat = s.ilat := rfl
@[simp] theorem State.setRetn_ipend (s : State) (v : Word) : (s.setRetn v).ipend = s.ipend := rfl
@[simp] theorem State.setRetn_evt (s : State) (v : Word) : (s.setRetn v).evt = s.evt := rfl
@[simp] theorem State.setRetn_sic (s : State) (v : Word) : (s.setRetn v).sic = s.sic := rfl
@[simp] theorem State.setRetn_idle (s : State) (v : Word) : (s.setRetn v).idle = s.idle := rfl
@[simp] theorem State.setRetn_doubleFault (s : State) (v : Word) : (s.setRetn v).doubleFault = s.doubleFault := rfl
@[simp] theorem State.setRetn_mem (s : State) (v : Word) : (s.setRetn v).mem = s.mem := rfl
@[simp] theorem State.setRetn_memEpoch (s : State) (v : Word) : (s.setRetn v).memEpoch = s.memEpoch := rfl
@[simp] theorem State.setRetn_plat (s : State) (v : Word) : (s.setRetn v).plat = s.plat := rfl
@[simp] theorem State.setRetn_env (s : State) (v : Word) : (s.setRetn v).env = s.env := rfl
@[simp] theorem State.setRetn_draws (s : State) (v : Word) : (s.setRetn v).draws = s.draws := rfl

@[simp] theorem State.setRete_pc (s : State) (v : Word) : (s.setRete v).pc = s.pc := rfl
@[simp] theorem State.setRete_d (s : State) (v : Word) : (s.setRete v).d = s.d := rfl
@[simp] theorem State.setRete_p (s : State) (v : Word) : (s.setRete v).p = s.p := rfl
@[simp] theorem State.setRete_ssp (s : State) (v : Word) : (s.setRete v).ssp = s.ssp := rfl
@[simp] theorem State.setRete_usp (s : State) (v : Word) : (s.setRete v).usp = s.usp := rfl
@[simp] theorem State.setRete_fp (s : State) (v : Word) : (s.setRete v).fp = s.fp := rfl
@[simp] theorem State.setRete_rets (s : State) (v : Word) : (s.setRete v).rets = s.rets := rfl
@[simp] theorem State.setRete_reti (s : State) (v : Word) : (s.setRete v).reti = s.reti := rfl
@[simp] theorem State.setRete_retx (s : State) (v : Word) : (s.setRete v).retx = s.retx := rfl
@[simp] theorem State.setRete_retn (s : State) (v : Word) : (s.setRete v).retn = s.retn := rfl
@[simp] theorem State.setRete_rete (s : State) (v : Word) : (s.setRete v).rete = v := rfl
@[simp] theorem State.setRete_loop0 (s : State) (v : Word) : (s.setRete v).loop0 = s.loop0 := rfl
@[simp] theorem State.setRete_loop1 (s : State) (v : Word) : (s.setRete v).loop1 = s.loop1 := rfl
@[simp] theorem State.setRete_seqstat (s : State) (v : Word) : (s.setRete v).seqstat = s.seqstat := rfl
@[simp] theorem State.setRete_syscfg (s : State) (v : Word) : (s.setRete v).syscfg = s.syscfg := rfl
@[simp] theorem State.setRete_cycles (s : State) (v : Word) : (s.setRete v).cycles = s.cycles := rfl
@[simp] theorem State.setRete_cycles2 (s : State) (v : Word) : (s.setRete v).cycles2 = s.cycles2 := rfl
@[simp] theorem State.setRete_astat (s : State) (v : Word) : (s.setRete v).astat = s.astat := rfl
@[simp] theorem State.setRete_imask (s : State) (v : Word) : (s.setRete v).imask = s.imask := rfl
@[simp] theorem State.setRete_ilat (s : State) (v : Word) : (s.setRete v).ilat = s.ilat := rfl
@[simp] theorem State.setRete_ipend (s : State) (v : Word) : (s.setRete v).ipend = s.ipend := rfl
@[simp] theorem State.setRete_evt (s : State) (v : Word) : (s.setRete v).evt = s.evt := rfl
@[simp] theorem State.setRete_sic (s : State) (v : Word) : (s.setRete v).sic = s.sic := rfl
@[simp] theorem State.setRete_idle (s : State) (v : Word) : (s.setRete v).idle = s.idle := rfl
@[simp] theorem State.setRete_doubleFault (s : State) (v : Word) : (s.setRete v).doubleFault = s.doubleFault := rfl
@[simp] theorem State.setRete_mem (s : State) (v : Word) : (s.setRete v).mem = s.mem := rfl
@[simp] theorem State.setRete_memEpoch (s : State) (v : Word) : (s.setRete v).memEpoch = s.memEpoch := rfl
@[simp] theorem State.setRete_plat (s : State) (v : Word) : (s.setRete v).plat = s.plat := rfl
@[simp] theorem State.setRete_env (s : State) (v : Word) : (s.setRete v).env = s.env := rfl
@[simp] theorem State.setRete_draws (s : State) (v : Word) : (s.setRete v).draws = s.draws := rfl

@[simp] theorem State.setLoop0_pc (s : State) (v : LoopUnit) : (s.setLoop0 v).pc = s.pc := rfl
@[simp] theorem State.setLoop0_d (s : State) (v : LoopUnit) : (s.setLoop0 v).d = s.d := rfl
@[simp] theorem State.setLoop0_p (s : State) (v : LoopUnit) : (s.setLoop0 v).p = s.p := rfl
@[simp] theorem State.setLoop0_ssp (s : State) (v : LoopUnit) : (s.setLoop0 v).ssp = s.ssp := rfl
@[simp] theorem State.setLoop0_usp (s : State) (v : LoopUnit) : (s.setLoop0 v).usp = s.usp := rfl
@[simp] theorem State.setLoop0_fp (s : State) (v : LoopUnit) : (s.setLoop0 v).fp = s.fp := rfl
@[simp] theorem State.setLoop0_rets (s : State) (v : LoopUnit) : (s.setLoop0 v).rets = s.rets := rfl
@[simp] theorem State.setLoop0_reti (s : State) (v : LoopUnit) : (s.setLoop0 v).reti = s.reti := rfl
@[simp] theorem State.setLoop0_retx (s : State) (v : LoopUnit) : (s.setLoop0 v).retx = s.retx := rfl
@[simp] theorem State.setLoop0_retn (s : State) (v : LoopUnit) : (s.setLoop0 v).retn = s.retn := rfl
@[simp] theorem State.setLoop0_rete (s : State) (v : LoopUnit) : (s.setLoop0 v).rete = s.rete := rfl
@[simp] theorem State.setLoop0_loop0 (s : State) (v : LoopUnit) : (s.setLoop0 v).loop0 = v := rfl
@[simp] theorem State.setLoop0_loop1 (s : State) (v : LoopUnit) : (s.setLoop0 v).loop1 = s.loop1 := rfl
@[simp] theorem State.setLoop0_seqstat (s : State) (v : LoopUnit) : (s.setLoop0 v).seqstat = s.seqstat := rfl
@[simp] theorem State.setLoop0_syscfg (s : State) (v : LoopUnit) : (s.setLoop0 v).syscfg = s.syscfg := rfl
@[simp] theorem State.setLoop0_cycles (s : State) (v : LoopUnit) : (s.setLoop0 v).cycles = s.cycles := rfl
@[simp] theorem State.setLoop0_cycles2 (s : State) (v : LoopUnit) : (s.setLoop0 v).cycles2 = s.cycles2 := rfl
@[simp] theorem State.setLoop0_astat (s : State) (v : LoopUnit) : (s.setLoop0 v).astat = s.astat := rfl
@[simp] theorem State.setLoop0_imask (s : State) (v : LoopUnit) : (s.setLoop0 v).imask = s.imask := rfl
@[simp] theorem State.setLoop0_ilat (s : State) (v : LoopUnit) : (s.setLoop0 v).ilat = s.ilat := rfl
@[simp] theorem State.setLoop0_ipend (s : State) (v : LoopUnit) : (s.setLoop0 v).ipend = s.ipend := rfl
@[simp] theorem State.setLoop0_evt (s : State) (v : LoopUnit) : (s.setLoop0 v).evt = s.evt := rfl
@[simp] theorem State.setLoop0_sic (s : State) (v : LoopUnit) : (s.setLoop0 v).sic = s.sic := rfl
@[simp] theorem State.setLoop0_idle (s : State) (v : LoopUnit) : (s.setLoop0 v).idle = s.idle := rfl
@[simp] theorem State.setLoop0_doubleFault (s : State) (v : LoopUnit) : (s.setLoop0 v).doubleFault = s.doubleFault := rfl
@[simp] theorem State.setLoop0_mem (s : State) (v : LoopUnit) : (s.setLoop0 v).mem = s.mem := rfl
@[simp] theorem State.setLoop0_memEpoch (s : State) (v : LoopUnit) : (s.setLoop0 v).memEpoch = s.memEpoch := rfl
@[simp] theorem State.setLoop0_plat (s : State) (v : LoopUnit) : (s.setLoop0 v).plat = s.plat := rfl
@[simp] theorem State.setLoop0_env (s : State) (v : LoopUnit) : (s.setLoop0 v).env = s.env := rfl
@[simp] theorem State.setLoop0_draws (s : State) (v : LoopUnit) : (s.setLoop0 v).draws = s.draws := rfl

@[simp] theorem State.setLoop1_pc (s : State) (v : LoopUnit) : (s.setLoop1 v).pc = s.pc := rfl
@[simp] theorem State.setLoop1_d (s : State) (v : LoopUnit) : (s.setLoop1 v).d = s.d := rfl
@[simp] theorem State.setLoop1_p (s : State) (v : LoopUnit) : (s.setLoop1 v).p = s.p := rfl
@[simp] theorem State.setLoop1_ssp (s : State) (v : LoopUnit) : (s.setLoop1 v).ssp = s.ssp := rfl
@[simp] theorem State.setLoop1_usp (s : State) (v : LoopUnit) : (s.setLoop1 v).usp = s.usp := rfl
@[simp] theorem State.setLoop1_fp (s : State) (v : LoopUnit) : (s.setLoop1 v).fp = s.fp := rfl
@[simp] theorem State.setLoop1_rets (s : State) (v : LoopUnit) : (s.setLoop1 v).rets = s.rets := rfl
@[simp] theorem State.setLoop1_reti (s : State) (v : LoopUnit) : (s.setLoop1 v).reti = s.reti := rfl
@[simp] theorem State.setLoop1_retx (s : State) (v : LoopUnit) : (s.setLoop1 v).retx = s.retx := rfl
@[simp] theorem State.setLoop1_retn (s : State) (v : LoopUnit) : (s.setLoop1 v).retn = s.retn := rfl
@[simp] theorem State.setLoop1_rete (s : State) (v : LoopUnit) : (s.setLoop1 v).rete = s.rete := rfl
@[simp] theorem State.setLoop1_loop0 (s : State) (v : LoopUnit) : (s.setLoop1 v).loop0 = s.loop0 := rfl
@[simp] theorem State.setLoop1_loop1 (s : State) (v : LoopUnit) : (s.setLoop1 v).loop1 = v := rfl
@[simp] theorem State.setLoop1_seqstat (s : State) (v : LoopUnit) : (s.setLoop1 v).seqstat = s.seqstat := rfl
@[simp] theorem State.setLoop1_syscfg (s : State) (v : LoopUnit) : (s.setLoop1 v).syscfg = s.syscfg := rfl
@[simp] theorem State.setLoop1_cycles (s : State) (v : LoopUnit) : (s.setLoop1 v).cycles = s.cycles := rfl
@[simp] theorem State.setLoop1_cycles2 (s : State) (v : LoopUnit) : (s.setLoop1 v).cycles2 = s.cycles2 := rfl
@[simp] theorem State.setLoop1_astat (s : State) (v : LoopUnit) : (s.setLoop1 v).astat = s.astat := rfl
@[simp] theorem State.setLoop1_imask (s : State) (v : LoopUnit) : (s.setLoop1 v).imask = s.imask := rfl
@[simp] theorem State.setLoop1_ilat (s : State) (v : LoopUnit) : (s.setLoop1 v).ilat = s.ilat := rfl
@[simp] theorem State.setLoop1_ipend (s : State) (v : LoopUnit) : (s.setLoop1 v).ipend = s.ipend := rfl
@[simp] theorem State.setLoop1_evt (s : State) (v : LoopUnit) : (s.setLoop1 v).evt = s.evt := rfl
@[simp] theorem State.setLoop1_sic (s : State) (v : LoopUnit) : (s.setLoop1 v).sic = s.sic := rfl
@[simp] theorem State.setLoop1_idle (s : State) (v : LoopUnit) : (s.setLoop1 v).idle = s.idle := rfl
@[simp] theorem State.setLoop1_doubleFault (s : State) (v : LoopUnit) : (s.setLoop1 v).doubleFault = s.doubleFault := rfl
@[simp] theorem State.setLoop1_mem (s : State) (v : LoopUnit) : (s.setLoop1 v).mem = s.mem := rfl
@[simp] theorem State.setLoop1_memEpoch (s : State) (v : LoopUnit) : (s.setLoop1 v).memEpoch = s.memEpoch := rfl
@[simp] theorem State.setLoop1_plat (s : State) (v : LoopUnit) : (s.setLoop1 v).plat = s.plat := rfl
@[simp] theorem State.setLoop1_env (s : State) (v : LoopUnit) : (s.setLoop1 v).env = s.env := rfl
@[simp] theorem State.setLoop1_draws (s : State) (v : LoopUnit) : (s.setLoop1 v).draws = s.draws := rfl

@[simp] theorem State.setSeqstat_pc (s : State) (v : Word) : (s.setSeqstat v).pc = s.pc := rfl
@[simp] theorem State.setSeqstat_d (s : State) (v : Word) : (s.setSeqstat v).d = s.d := rfl
@[simp] theorem State.setSeqstat_p (s : State) (v : Word) : (s.setSeqstat v).p = s.p := rfl
@[simp] theorem State.setSeqstat_ssp (s : State) (v : Word) : (s.setSeqstat v).ssp = s.ssp := rfl
@[simp] theorem State.setSeqstat_usp (s : State) (v : Word) : (s.setSeqstat v).usp = s.usp := rfl
@[simp] theorem State.setSeqstat_fp (s : State) (v : Word) : (s.setSeqstat v).fp = s.fp := rfl
@[simp] theorem State.setSeqstat_rets (s : State) (v : Word) : (s.setSeqstat v).rets = s.rets := rfl
@[simp] theorem State.setSeqstat_reti (s : State) (v : Word) : (s.setSeqstat v).reti = s.reti := rfl
@[simp] theorem State.setSeqstat_retx (s : State) (v : Word) : (s.setSeqstat v).retx = s.retx := rfl
@[simp] theorem State.setSeqstat_retn (s : State) (v : Word) : (s.setSeqstat v).retn = s.retn := rfl
@[simp] theorem State.setSeqstat_rete (s : State) (v : Word) : (s.setSeqstat v).rete = s.rete := rfl
@[simp] theorem State.setSeqstat_loop0 (s : State) (v : Word) : (s.setSeqstat v).loop0 = s.loop0 := rfl
@[simp] theorem State.setSeqstat_loop1 (s : State) (v : Word) : (s.setSeqstat v).loop1 = s.loop1 := rfl
@[simp] theorem State.setSeqstat_seqstat (s : State) (v : Word) : (s.setSeqstat v).seqstat = v := rfl
@[simp] theorem State.setSeqstat_syscfg (s : State) (v : Word) : (s.setSeqstat v).syscfg = s.syscfg := rfl
@[simp] theorem State.setSeqstat_cycles (s : State) (v : Word) : (s.setSeqstat v).cycles = s.cycles := rfl
@[simp] theorem State.setSeqstat_cycles2 (s : State) (v : Word) : (s.setSeqstat v).cycles2 = s.cycles2 := rfl
@[simp] theorem State.setSeqstat_astat (s : State) (v : Word) : (s.setSeqstat v).astat = s.astat := rfl
@[simp] theorem State.setSeqstat_imask (s : State) (v : Word) : (s.setSeqstat v).imask = s.imask := rfl
@[simp] theorem State.setSeqstat_ilat (s : State) (v : Word) : (s.setSeqstat v).ilat = s.ilat := rfl
@[simp] theorem State.setSeqstat_ipend (s : State) (v : Word) : (s.setSeqstat v).ipend = s.ipend := rfl
@[simp] theorem State.setSeqstat_evt (s : State) (v : Word) : (s.setSeqstat v).evt = s.evt := rfl
@[simp] theorem State.setSeqstat_sic (s : State) (v : Word) : (s.setSeqstat v).sic = s.sic := rfl
@[simp] theorem State.setSeqstat_idle (s : State) (v : Word) : (s.setSeqstat v).idle = s.idle := rfl
@[simp] theorem State.setSeqstat_doubleFault (s : State) (v : Word) : (s.setSeqstat v).doubleFault = s.doubleFault := rfl
@[simp] theorem State.setSeqstat_mem (s : State) (v : Word) : (s.setSeqstat v).mem = s.mem := rfl
@[simp] theorem State.setSeqstat_memEpoch (s : State) (v : Word) : (s.setSeqstat v).memEpoch = s.memEpoch := rfl
@[simp] theorem State.setSeqstat_plat (s : State) (v : Word) : (s.setSeqstat v).plat = s.plat := rfl
@[simp] theorem State.setSeqstat_env (s : State) (v : Word) : (s.setSeqstat v).env = s.env := rfl
@[simp] theorem State.setSeqstat_draws (s : State) (v : Word) : (s.setSeqstat v).draws = s.draws := rfl

@[simp] theorem State.setSyscfg_pc (s : State) (v : Word) : (s.setSyscfg v).pc = s.pc := rfl
@[simp] theorem State.setSyscfg_d (s : State) (v : Word) : (s.setSyscfg v).d = s.d := rfl
@[simp] theorem State.setSyscfg_p (s : State) (v : Word) : (s.setSyscfg v).p = s.p := rfl
@[simp] theorem State.setSyscfg_ssp (s : State) (v : Word) : (s.setSyscfg v).ssp = s.ssp := rfl
@[simp] theorem State.setSyscfg_usp (s : State) (v : Word) : (s.setSyscfg v).usp = s.usp := rfl
@[simp] theorem State.setSyscfg_fp (s : State) (v : Word) : (s.setSyscfg v).fp = s.fp := rfl
@[simp] theorem State.setSyscfg_rets (s : State) (v : Word) : (s.setSyscfg v).rets = s.rets := rfl
@[simp] theorem State.setSyscfg_reti (s : State) (v : Word) : (s.setSyscfg v).reti = s.reti := rfl
@[simp] theorem State.setSyscfg_retx (s : State) (v : Word) : (s.setSyscfg v).retx = s.retx := rfl
@[simp] theorem State.setSyscfg_retn (s : State) (v : Word) : (s.setSyscfg v).retn = s.retn := rfl
@[simp] theorem State.setSyscfg_rete (s : State) (v : Word) : (s.setSyscfg v).rete = s.rete := rfl
@[simp] theorem State.setSyscfg_loop0 (s : State) (v : Word) : (s.setSyscfg v).loop0 = s.loop0 := rfl
@[simp] theorem State.setSyscfg_loop1 (s : State) (v : Word) : (s.setSyscfg v).loop1 = s.loop1 := rfl
@[simp] theorem State.setSyscfg_seqstat (s : State) (v : Word) : (s.setSyscfg v).seqstat = s.seqstat := rfl
@[simp] theorem State.setSyscfg_syscfg (s : State) (v : Word) : (s.setSyscfg v).syscfg = v := rfl
@[simp] theorem State.setSyscfg_cycles (s : State) (v : Word) : (s.setSyscfg v).cycles = s.cycles := rfl
@[simp] theorem State.setSyscfg_cycles2 (s : State) (v : Word) : (s.setSyscfg v).cycles2 = s.cycles2 := rfl
@[simp] theorem State.setSyscfg_astat (s : State) (v : Word) : (s.setSyscfg v).astat = s.astat := rfl
@[simp] theorem State.setSyscfg_imask (s : State) (v : Word) : (s.setSyscfg v).imask = s.imask := rfl
@[simp] theorem State.setSyscfg_ilat (s : State) (v : Word) : (s.setSyscfg v).ilat = s.ilat := rfl
@[simp] theorem State.setSyscfg_ipend (s : State) (v : Word) : (s.setSyscfg v).ipend = s.ipend := rfl
@[simp] theorem State.setSyscfg_evt (s : State) (v : Word) : (s.setSyscfg v).evt = s.evt := rfl
@[simp] theorem State.setSyscfg_sic (s : State) (v : Word) : (s.setSyscfg v).sic = s.sic := rfl
@[simp] theorem State.setSyscfg_idle (s : State) (v : Word) : (s.setSyscfg v).idle = s.idle := rfl
@[simp] theorem State.setSyscfg_doubleFault (s : State) (v : Word) : (s.setSyscfg v).doubleFault = s.doubleFault := rfl
@[simp] theorem State.setSyscfg_mem (s : State) (v : Word) : (s.setSyscfg v).mem = s.mem := rfl
@[simp] theorem State.setSyscfg_memEpoch (s : State) (v : Word) : (s.setSyscfg v).memEpoch = s.memEpoch := rfl
@[simp] theorem State.setSyscfg_plat (s : State) (v : Word) : (s.setSyscfg v).plat = s.plat := rfl
@[simp] theorem State.setSyscfg_env (s : State) (v : Word) : (s.setSyscfg v).env = s.env := rfl
@[simp] theorem State.setSyscfg_draws (s : State) (v : Word) : (s.setSyscfg v).draws = s.draws := rfl

@[simp] theorem State.setCycles_pc (s : State) (v : Word) : (s.setCycles v).pc = s.pc := rfl
@[simp] theorem State.setCycles_d (s : State) (v : Word) : (s.setCycles v).d = s.d := rfl
@[simp] theorem State.setCycles_p (s : State) (v : Word) : (s.setCycles v).p = s.p := rfl
@[simp] theorem State.setCycles_ssp (s : State) (v : Word) : (s.setCycles v).ssp = s.ssp := rfl
@[simp] theorem State.setCycles_usp (s : State) (v : Word) : (s.setCycles v).usp = s.usp := rfl
@[simp] theorem State.setCycles_fp (s : State) (v : Word) : (s.setCycles v).fp = s.fp := rfl
@[simp] theorem State.setCycles_rets (s : State) (v : Word) : (s.setCycles v).rets = s.rets := rfl
@[simp] theorem State.setCycles_reti (s : State) (v : Word) : (s.setCycles v).reti = s.reti := rfl
@[simp] theorem State.setCycles_retx (s : State) (v : Word) : (s.setCycles v).retx = s.retx := rfl
@[simp] theorem State.setCycles_retn (s : State) (v : Word) : (s.setCycles v).retn = s.retn := rfl
@[simp] theorem State.setCycles_rete (s : State) (v : Word) : (s.setCycles v).rete = s.rete := rfl
@[simp] theorem State.setCycles_loop0 (s : State) (v : Word) : (s.setCycles v).loop0 = s.loop0 := rfl
@[simp] theorem State.setCycles_loop1 (s : State) (v : Word) : (s.setCycles v).loop1 = s.loop1 := rfl
@[simp] theorem State.setCycles_seqstat (s : State) (v : Word) : (s.setCycles v).seqstat = s.seqstat := rfl
@[simp] theorem State.setCycles_syscfg (s : State) (v : Word) : (s.setCycles v).syscfg = s.syscfg := rfl
@[simp] theorem State.setCycles_cycles (s : State) (v : Word) : (s.setCycles v).cycles = v := rfl
@[simp] theorem State.setCycles_cycles2 (s : State) (v : Word) : (s.setCycles v).cycles2 = s.cycles2 := rfl
@[simp] theorem State.setCycles_astat (s : State) (v : Word) : (s.setCycles v).astat = s.astat := rfl
@[simp] theorem State.setCycles_imask (s : State) (v : Word) : (s.setCycles v).imask = s.imask := rfl
@[simp] theorem State.setCycles_ilat (s : State) (v : Word) : (s.setCycles v).ilat = s.ilat := rfl
@[simp] theorem State.setCycles_ipend (s : State) (v : Word) : (s.setCycles v).ipend = s.ipend := rfl
@[simp] theorem State.setCycles_evt (s : State) (v : Word) : (s.setCycles v).evt = s.evt := rfl
@[simp] theorem State.setCycles_sic (s : State) (v : Word) : (s.setCycles v).sic = s.sic := rfl
@[simp] theorem State.setCycles_idle (s : State) (v : Word) : (s.setCycles v).idle = s.idle := rfl
@[simp] theorem State.setCycles_doubleFault (s : State) (v : Word) : (s.setCycles v).doubleFault = s.doubleFault := rfl
@[simp] theorem State.setCycles_mem (s : State) (v : Word) : (s.setCycles v).mem = s.mem := rfl
@[simp] theorem State.setCycles_memEpoch (s : State) (v : Word) : (s.setCycles v).memEpoch = s.memEpoch := rfl
@[simp] theorem State.setCycles_plat (s : State) (v : Word) : (s.setCycles v).plat = s.plat := rfl
@[simp] theorem State.setCycles_env (s : State) (v : Word) : (s.setCycles v).env = s.env := rfl
@[simp] theorem State.setCycles_draws (s : State) (v : Word) : (s.setCycles v).draws = s.draws := rfl

@[simp] theorem State.setCycles2_pc (s : State) (v : Word) : (s.setCycles2 v).pc = s.pc := rfl
@[simp] theorem State.setCycles2_d (s : State) (v : Word) : (s.setCycles2 v).d = s.d := rfl
@[simp] theorem State.setCycles2_p (s : State) (v : Word) : (s.setCycles2 v).p = s.p := rfl
@[simp] theorem State.setCycles2_ssp (s : State) (v : Word) : (s.setCycles2 v).ssp = s.ssp := rfl
@[simp] theorem State.setCycles2_usp (s : State) (v : Word) : (s.setCycles2 v).usp = s.usp := rfl
@[simp] theorem State.setCycles2_fp (s : State) (v : Word) : (s.setCycles2 v).fp = s.fp := rfl
@[simp] theorem State.setCycles2_rets (s : State) (v : Word) : (s.setCycles2 v).rets = s.rets := rfl
@[simp] theorem State.setCycles2_reti (s : State) (v : Word) : (s.setCycles2 v).reti = s.reti := rfl
@[simp] theorem State.setCycles2_retx (s : State) (v : Word) : (s.setCycles2 v).retx = s.retx := rfl
@[simp] theorem State.setCycles2_retn (s : State) (v : Word) : (s.setCycles2 v).retn = s.retn := rfl
@[simp] theorem State.setCycles2_rete (s : State) (v : Word) : (s.setCycles2 v).rete = s.rete := rfl
@[simp] theorem State.setCycles2_loop0 (s : State) (v : Word) : (s.setCycles2 v).loop0 = s.loop0 := rfl
@[simp] theorem State.setCycles2_loop1 (s : State) (v : Word) : (s.setCycles2 v).loop1 = s.loop1 := rfl
@[simp] theorem State.setCycles2_seqstat (s : State) (v : Word) : (s.setCycles2 v).seqstat = s.seqstat := rfl
@[simp] theorem State.setCycles2_syscfg (s : State) (v : Word) : (s.setCycles2 v).syscfg = s.syscfg := rfl
@[simp] theorem State.setCycles2_cycles (s : State) (v : Word) : (s.setCycles2 v).cycles = s.cycles := rfl
@[simp] theorem State.setCycles2_cycles2 (s : State) (v : Word) : (s.setCycles2 v).cycles2 = v := rfl
@[simp] theorem State.setCycles2_astat (s : State) (v : Word) : (s.setCycles2 v).astat = s.astat := rfl
@[simp] theorem State.setCycles2_imask (s : State) (v : Word) : (s.setCycles2 v).imask = s.imask := rfl
@[simp] theorem State.setCycles2_ilat (s : State) (v : Word) : (s.setCycles2 v).ilat = s.ilat := rfl
@[simp] theorem State.setCycles2_ipend (s : State) (v : Word) : (s.setCycles2 v).ipend = s.ipend := rfl
@[simp] theorem State.setCycles2_evt (s : State) (v : Word) : (s.setCycles2 v).evt = s.evt := rfl
@[simp] theorem State.setCycles2_sic (s : State) (v : Word) : (s.setCycles2 v).sic = s.sic := rfl
@[simp] theorem State.setCycles2_idle (s : State) (v : Word) : (s.setCycles2 v).idle = s.idle := rfl
@[simp] theorem State.setCycles2_doubleFault (s : State) (v : Word) : (s.setCycles2 v).doubleFault = s.doubleFault := rfl
@[simp] theorem State.setCycles2_mem (s : State) (v : Word) : (s.setCycles2 v).mem = s.mem := rfl
@[simp] theorem State.setCycles2_memEpoch (s : State) (v : Word) : (s.setCycles2 v).memEpoch = s.memEpoch := rfl
@[simp] theorem State.setCycles2_plat (s : State) (v : Word) : (s.setCycles2 v).plat = s.plat := rfl
@[simp] theorem State.setCycles2_env (s : State) (v : Word) : (s.setCycles2 v).env = s.env := rfl
@[simp] theorem State.setCycles2_draws (s : State) (v : Word) : (s.setCycles2 v).draws = s.draws := rfl

@[simp] theorem State.setAstat_pc (s : State) (v : Astat) : (s.setAstat v).pc = s.pc := rfl
@[simp] theorem State.setAstat_d (s : State) (v : Astat) : (s.setAstat v).d = s.d := rfl
@[simp] theorem State.setAstat_p (s : State) (v : Astat) : (s.setAstat v).p = s.p := rfl
@[simp] theorem State.setAstat_ssp (s : State) (v : Astat) : (s.setAstat v).ssp = s.ssp := rfl
@[simp] theorem State.setAstat_usp (s : State) (v : Astat) : (s.setAstat v).usp = s.usp := rfl
@[simp] theorem State.setAstat_fp (s : State) (v : Astat) : (s.setAstat v).fp = s.fp := rfl
@[simp] theorem State.setAstat_rets (s : State) (v : Astat) : (s.setAstat v).rets = s.rets := rfl
@[simp] theorem State.setAstat_reti (s : State) (v : Astat) : (s.setAstat v).reti = s.reti := rfl
@[simp] theorem State.setAstat_retx (s : State) (v : Astat) : (s.setAstat v).retx = s.retx := rfl
@[simp] theorem State.setAstat_retn (s : State) (v : Astat) : (s.setAstat v).retn = s.retn := rfl
@[simp] theorem State.setAstat_rete (s : State) (v : Astat) : (s.setAstat v).rete = s.rete := rfl
@[simp] theorem State.setAstat_loop0 (s : State) (v : Astat) : (s.setAstat v).loop0 = s.loop0 := rfl
@[simp] theorem State.setAstat_loop1 (s : State) (v : Astat) : (s.setAstat v).loop1 = s.loop1 := rfl
@[simp] theorem State.setAstat_seqstat (s : State) (v : Astat) : (s.setAstat v).seqstat = s.seqstat := rfl
@[simp] theorem State.setAstat_syscfg (s : State) (v : Astat) : (s.setAstat v).syscfg = s.syscfg := rfl
@[simp] theorem State.setAstat_cycles (s : State) (v : Astat) : (s.setAstat v).cycles = s.cycles := rfl
@[simp] theorem State.setAstat_cycles2 (s : State) (v : Astat) : (s.setAstat v).cycles2 = s.cycles2 := rfl
@[simp] theorem State.setAstat_astat (s : State) (v : Astat) : (s.setAstat v).astat = v := rfl
@[simp] theorem State.setAstat_imask (s : State) (v : Astat) : (s.setAstat v).imask = s.imask := rfl
@[simp] theorem State.setAstat_ilat (s : State) (v : Astat) : (s.setAstat v).ilat = s.ilat := rfl
@[simp] theorem State.setAstat_ipend (s : State) (v : Astat) : (s.setAstat v).ipend = s.ipend := rfl
@[simp] theorem State.setAstat_evt (s : State) (v : Astat) : (s.setAstat v).evt = s.evt := rfl
@[simp] theorem State.setAstat_sic (s : State) (v : Astat) : (s.setAstat v).sic = s.sic := rfl
@[simp] theorem State.setAstat_idle (s : State) (v : Astat) : (s.setAstat v).idle = s.idle := rfl
@[simp] theorem State.setAstat_doubleFault (s : State) (v : Astat) : (s.setAstat v).doubleFault = s.doubleFault := rfl
@[simp] theorem State.setAstat_mem (s : State) (v : Astat) : (s.setAstat v).mem = s.mem := rfl
@[simp] theorem State.setAstat_memEpoch (s : State) (v : Astat) : (s.setAstat v).memEpoch = s.memEpoch := rfl
@[simp] theorem State.setAstat_plat (s : State) (v : Astat) : (s.setAstat v).plat = s.plat := rfl
@[simp] theorem State.setAstat_env (s : State) (v : Astat) : (s.setAstat v).env = s.env := rfl
@[simp] theorem State.setAstat_draws (s : State) (v : Astat) : (s.setAstat v).draws = s.draws := rfl

@[simp] theorem State.setImask_pc (s : State) (v : BitVec 16) : (s.setImask v).pc = s.pc := rfl
@[simp] theorem State.setImask_d (s : State) (v : BitVec 16) : (s.setImask v).d = s.d := rfl
@[simp] theorem State.setImask_p (s : State) (v : BitVec 16) : (s.setImask v).p = s.p := rfl
@[simp] theorem State.setImask_ssp (s : State) (v : BitVec 16) : (s.setImask v).ssp = s.ssp := rfl
@[simp] theorem State.setImask_usp (s : State) (v : BitVec 16) : (s.setImask v).usp = s.usp := rfl
@[simp] theorem State.setImask_fp (s : State) (v : BitVec 16) : (s.setImask v).fp = s.fp := rfl
@[simp] theorem State.setImask_rets (s : State) (v : BitVec 16) : (s.setImask v).rets = s.rets := rfl
@[simp] theorem State.setImask_reti (s : State) (v : BitVec 16) : (s.setImask v).reti = s.reti := rfl
@[simp] theorem State.setImask_retx (s : State) (v : BitVec 16) : (s.setImask v).retx = s.retx := rfl
@[simp] theorem State.setImask_retn (s : State) (v : BitVec 16) : (s.setImask v).retn = s.retn := rfl
@[simp] theorem State.setImask_rete (s : State) (v : BitVec 16) : (s.setImask v).rete = s.rete := rfl
@[simp] theorem State.setImask_loop0 (s : State) (v : BitVec 16) : (s.setImask v).loop0 = s.loop0 := rfl
@[simp] theorem State.setImask_loop1 (s : State) (v : BitVec 16) : (s.setImask v).loop1 = s.loop1 := rfl
@[simp] theorem State.setImask_seqstat (s : State) (v : BitVec 16) : (s.setImask v).seqstat = s.seqstat := rfl
@[simp] theorem State.setImask_syscfg (s : State) (v : BitVec 16) : (s.setImask v).syscfg = s.syscfg := rfl
@[simp] theorem State.setImask_cycles (s : State) (v : BitVec 16) : (s.setImask v).cycles = s.cycles := rfl
@[simp] theorem State.setImask_cycles2 (s : State) (v : BitVec 16) : (s.setImask v).cycles2 = s.cycles2 := rfl
@[simp] theorem State.setImask_astat (s : State) (v : BitVec 16) : (s.setImask v).astat = s.astat := rfl
@[simp] theorem State.setImask_imask (s : State) (v : BitVec 16) : (s.setImask v).imask = v := rfl
@[simp] theorem State.setImask_ilat (s : State) (v : BitVec 16) : (s.setImask v).ilat = s.ilat := rfl
@[simp] theorem State.setImask_ipend (s : State) (v : BitVec 16) : (s.setImask v).ipend = s.ipend := rfl
@[simp] theorem State.setImask_evt (s : State) (v : BitVec 16) : (s.setImask v).evt = s.evt := rfl
@[simp] theorem State.setImask_sic (s : State) (v : BitVec 16) : (s.setImask v).sic = s.sic := rfl
@[simp] theorem State.setImask_idle (s : State) (v : BitVec 16) : (s.setImask v).idle = s.idle := rfl
@[simp] theorem State.setImask_doubleFault (s : State) (v : BitVec 16) : (s.setImask v).doubleFault = s.doubleFault := rfl
@[simp] theorem State.setImask_mem (s : State) (v : BitVec 16) : (s.setImask v).mem = s.mem := rfl
@[simp] theorem State.setImask_memEpoch (s : State) (v : BitVec 16) : (s.setImask v).memEpoch = s.memEpoch := rfl
@[simp] theorem State.setImask_plat (s : State) (v : BitVec 16) : (s.setImask v).plat = s.plat := rfl
@[simp] theorem State.setImask_env (s : State) (v : BitVec 16) : (s.setImask v).env = s.env := rfl
@[simp] theorem State.setImask_draws (s : State) (v : BitVec 16) : (s.setImask v).draws = s.draws := rfl

@[simp] theorem State.setIlat_pc (s : State) (v : BitVec 16) : (s.setIlat v).pc = s.pc := rfl
@[simp] theorem State.setIlat_d (s : State) (v : BitVec 16) : (s.setIlat v).d = s.d := rfl
@[simp] theorem State.setIlat_p (s : State) (v : BitVec 16) : (s.setIlat v).p = s.p := rfl
@[simp] theorem State.setIlat_ssp (s : State) (v : BitVec 16) : (s.setIlat v).ssp = s.ssp := rfl
@[simp] theorem State.setIlat_usp (s : State) (v : BitVec 16) : (s.setIlat v).usp = s.usp := rfl
@[simp] theorem State.setIlat_fp (s : State) (v : BitVec 16) : (s.setIlat v).fp = s.fp := rfl
@[simp] theorem State.setIlat_rets (s : State) (v : BitVec 16) : (s.setIlat v).rets = s.rets := rfl
@[simp] theorem State.setIlat_reti (s : State) (v : BitVec 16) : (s.setIlat v).reti = s.reti := rfl
@[simp] theorem State.setIlat_retx (s : State) (v : BitVec 16) : (s.setIlat v).retx = s.retx := rfl
@[simp] theorem State.setIlat_retn (s : State) (v : BitVec 16) : (s.setIlat v).retn = s.retn := rfl
@[simp] theorem State.setIlat_rete (s : State) (v : BitVec 16) : (s.setIlat v).rete = s.rete := rfl
@[simp] theorem State.setIlat_loop0 (s : State) (v : BitVec 16) : (s.setIlat v).loop0 = s.loop0 := rfl
@[simp] theorem State.setIlat_loop1 (s : State) (v : BitVec 16) : (s.setIlat v).loop1 = s.loop1 := rfl
@[simp] theorem State.setIlat_seqstat (s : State) (v : BitVec 16) : (s.setIlat v).seqstat = s.seqstat := rfl
@[simp] theorem State.setIlat_syscfg (s : State) (v : BitVec 16) : (s.setIlat v).syscfg = s.syscfg := rfl
@[simp] theorem State.setIlat_cycles (s : State) (v : BitVec 16) : (s.setIlat v).cycles = s.cycles := rfl
@[simp] theorem State.setIlat_cycles2 (s : State) (v : BitVec 16) : (s.setIlat v).cycles2 = s.cycles2 := rfl
@[simp] theorem State.setIlat_astat (s : State) (v : BitVec 16) : (s.setIlat v).astat = s.astat := rfl
@[simp] theorem State.setIlat_imask (s : State) (v : BitVec 16) : (s.setIlat v).imask = s.imask := rfl
@[simp] theorem State.setIlat_ilat (s : State) (v : BitVec 16) : (s.setIlat v).ilat = v := rfl
@[simp] theorem State.setIlat_ipend (s : State) (v : BitVec 16) : (s.setIlat v).ipend = s.ipend := rfl
@[simp] theorem State.setIlat_evt (s : State) (v : BitVec 16) : (s.setIlat v).evt = s.evt := rfl
@[simp] theorem State.setIlat_sic (s : State) (v : BitVec 16) : (s.setIlat v).sic = s.sic := rfl
@[simp] theorem State.setIlat_idle (s : State) (v : BitVec 16) : (s.setIlat v).idle = s.idle := rfl
@[simp] theorem State.setIlat_doubleFault (s : State) (v : BitVec 16) : (s.setIlat v).doubleFault = s.doubleFault := rfl
@[simp] theorem State.setIlat_mem (s : State) (v : BitVec 16) : (s.setIlat v).mem = s.mem := rfl
@[simp] theorem State.setIlat_memEpoch (s : State) (v : BitVec 16) : (s.setIlat v).memEpoch = s.memEpoch := rfl
@[simp] theorem State.setIlat_plat (s : State) (v : BitVec 16) : (s.setIlat v).plat = s.plat := rfl
@[simp] theorem State.setIlat_env (s : State) (v : BitVec 16) : (s.setIlat v).env = s.env := rfl
@[simp] theorem State.setIlat_draws (s : State) (v : BitVec 16) : (s.setIlat v).draws = s.draws := rfl

@[simp] theorem State.setIpend_pc (s : State) (v : BitVec 16) : (s.setIpend v).pc = s.pc := rfl
@[simp] theorem State.setIpend_d (s : State) (v : BitVec 16) : (s.setIpend v).d = s.d := rfl
@[simp] theorem State.setIpend_p (s : State) (v : BitVec 16) : (s.setIpend v).p = s.p := rfl
@[simp] theorem State.setIpend_ssp (s : State) (v : BitVec 16) : (s.setIpend v).ssp = s.ssp := rfl
@[simp] theorem State.setIpend_usp (s : State) (v : BitVec 16) : (s.setIpend v).usp = s.usp := rfl
@[simp] theorem State.setIpend_fp (s : State) (v : BitVec 16) : (s.setIpend v).fp = s.fp := rfl
@[simp] theorem State.setIpend_rets (s : State) (v : BitVec 16) : (s.setIpend v).rets = s.rets := rfl
@[simp] theorem State.setIpend_reti (s : State) (v : BitVec 16) : (s.setIpend v).reti = s.reti := rfl
@[simp] theorem State.setIpend_retx (s : State) (v : BitVec 16) : (s.setIpend v).retx = s.retx := rfl
@[simp] theorem State.setIpend_retn (s : State) (v : BitVec 16) : (s.setIpend v).retn = s.retn := rfl
@[simp] theorem State.setIpend_rete (s : State) (v : BitVec 16) : (s.setIpend v).rete = s.rete := rfl
@[simp] theorem State.setIpend_loop0 (s : State) (v : BitVec 16) : (s.setIpend v).loop0 = s.loop0 := rfl
@[simp] theorem State.setIpend_loop1 (s : State) (v : BitVec 16) : (s.setIpend v).loop1 = s.loop1 := rfl
@[simp] theorem State.setIpend_seqstat (s : State) (v : BitVec 16) : (s.setIpend v).seqstat = s.seqstat := rfl
@[simp] theorem State.setIpend_syscfg (s : State) (v : BitVec 16) : (s.setIpend v).syscfg = s.syscfg := rfl
@[simp] theorem State.setIpend_cycles (s : State) (v : BitVec 16) : (s.setIpend v).cycles = s.cycles := rfl
@[simp] theorem State.setIpend_cycles2 (s : State) (v : BitVec 16) : (s.setIpend v).cycles2 = s.cycles2 := rfl
@[simp] theorem State.setIpend_astat (s : State) (v : BitVec 16) : (s.setIpend v).astat = s.astat := rfl
@[simp] theorem State.setIpend_imask (s : State) (v : BitVec 16) : (s.setIpend v).imask = s.imask := rfl
@[simp] theorem State.setIpend_ilat (s : State) (v : BitVec 16) : (s.setIpend v).ilat = s.ilat := rfl
@[simp] theorem State.setIpend_ipend (s : State) (v : BitVec 16) : (s.setIpend v).ipend = v := rfl
@[simp] theorem State.setIpend_evt (s : State) (v : BitVec 16) : (s.setIpend v).evt = s.evt := rfl
@[simp] theorem State.setIpend_sic (s : State) (v : BitVec 16) : (s.setIpend v).sic = s.sic := rfl
@[simp] theorem State.setIpend_idle (s : State) (v : BitVec 16) : (s.setIpend v).idle = s.idle := rfl
@[simp] theorem State.setIpend_doubleFault (s : State) (v : BitVec 16) : (s.setIpend v).doubleFault = s.doubleFault := rfl
@[simp] theorem State.setIpend_mem (s : State) (v : BitVec 16) : (s.setIpend v).mem = s.mem := rfl
@[simp] theorem State.setIpend_memEpoch (s : State) (v : BitVec 16) : (s.setIpend v).memEpoch = s.memEpoch := rfl
@[simp] theorem State.setIpend_plat (s : State) (v : BitVec 16) : (s.setIpend v).plat = s.plat := rfl
@[simp] theorem State.setIpend_env (s : State) (v : BitVec 16) : (s.setIpend v).env = s.env := rfl
@[simp] theorem State.setIpend_draws (s : State) (v : BitVec 16) : (s.setIpend v).draws = s.draws := rfl

@[simp] theorem State.setSic_pc (s : State) (v : Sic) : (s.setSic v).pc = s.pc := rfl
@[simp] theorem State.setSic_d (s : State) (v : Sic) : (s.setSic v).d = s.d := rfl
@[simp] theorem State.setSic_p (s : State) (v : Sic) : (s.setSic v).p = s.p := rfl
@[simp] theorem State.setSic_ssp (s : State) (v : Sic) : (s.setSic v).ssp = s.ssp := rfl
@[simp] theorem State.setSic_usp (s : State) (v : Sic) : (s.setSic v).usp = s.usp := rfl
@[simp] theorem State.setSic_fp (s : State) (v : Sic) : (s.setSic v).fp = s.fp := rfl
@[simp] theorem State.setSic_rets (s : State) (v : Sic) : (s.setSic v).rets = s.rets := rfl
@[simp] theorem State.setSic_reti (s : State) (v : Sic) : (s.setSic v).reti = s.reti := rfl
@[simp] theorem State.setSic_retx (s : State) (v : Sic) : (s.setSic v).retx = s.retx := rfl
@[simp] theorem State.setSic_retn (s : State) (v : Sic) : (s.setSic v).retn = s.retn := rfl
@[simp] theorem State.setSic_rete (s : State) (v : Sic) : (s.setSic v).rete = s.rete := rfl
@[simp] theorem State.setSic_loop0 (s : State) (v : Sic) : (s.setSic v).loop0 = s.loop0 := rfl
@[simp] theorem State.setSic_loop1 (s : State) (v : Sic) : (s.setSic v).loop1 = s.loop1 := rfl
@[simp] theorem State.setSic_seqstat (s : State) (v : Sic) : (s.setSic v).seqstat = s.seqstat := rfl
@[simp] theorem State.setSic_syscfg (s : State) (v : Sic) : (s.setSic v).syscfg = s.syscfg := rfl
@[simp] theorem State.setSic_cycles (s : State) (v : Sic) : (s.setSic v).cycles = s.cycles := rfl
@[simp] theorem State.setSic_cycles2 (s : State) (v : Sic) : (s.setSic v).cycles2 = s.cycles2 := rfl
@[simp] theorem State.setSic_astat (s : State) (v : Sic) : (s.setSic v).astat = s.astat := rfl
@[simp] theorem State.setSic_imask (s : State) (v : Sic) : (s.setSic v).imask = s.imask := rfl
@[simp] theorem State.setSic_ilat (s : State) (v : Sic) : (s.setSic v).ilat = s.ilat := rfl
@[simp] theorem State.setSic_ipend (s : State) (v : Sic) : (s.setSic v).ipend = s.ipend := rfl
@[simp] theorem State.setSic_evt (s : State) (v : Sic) : (s.setSic v).evt = s.evt := rfl
@[simp] theorem State.setSic_sic (s : State) (v : Sic) : (s.setSic v).sic = v := rfl
@[simp] theorem State.setSic_idle (s : State) (v : Sic) : (s.setSic v).idle = s.idle := rfl
@[simp] theorem State.setSic_doubleFault (s : State) (v : Sic) : (s.setSic v).doubleFault = s.doubleFault := rfl
@[simp] theorem State.setSic_mem (s : State) (v : Sic) : (s.setSic v).mem = s.mem := rfl
@[simp] theorem State.setSic_memEpoch (s : State) (v : Sic) : (s.setSic v).memEpoch = s.memEpoch := rfl
@[simp] theorem State.setSic_plat (s : State) (v : Sic) : (s.setSic v).plat = s.plat := rfl
@[simp] theorem State.setSic_env (s : State) (v : Sic) : (s.setSic v).env = s.env := rfl
@[simp] theorem State.setSic_draws (s : State) (v : Sic) : (s.setSic v).draws = s.draws := rfl

@[simp] theorem State.setIdle_pc (s : State) (v : Bool) : (s.setIdle v).pc = s.pc := rfl
@[simp] theorem State.setIdle_d (s : State) (v : Bool) : (s.setIdle v).d = s.d := rfl
@[simp] theorem State.setIdle_p (s : State) (v : Bool) : (s.setIdle v).p = s.p := rfl
@[simp] theorem State.setIdle_ssp (s : State) (v : Bool) : (s.setIdle v).ssp = s.ssp := rfl
@[simp] theorem State.setIdle_usp (s : State) (v : Bool) : (s.setIdle v).usp = s.usp := rfl
@[simp] theorem State.setIdle_fp (s : State) (v : Bool) : (s.setIdle v).fp = s.fp := rfl
@[simp] theorem State.setIdle_rets (s : State) (v : Bool) : (s.setIdle v).rets = s.rets := rfl
@[simp] theorem State.setIdle_reti (s : State) (v : Bool) : (s.setIdle v).reti = s.reti := rfl
@[simp] theorem State.setIdle_retx (s : State) (v : Bool) : (s.setIdle v).retx = s.retx := rfl
@[simp] theorem State.setIdle_retn (s : State) (v : Bool) : (s.setIdle v).retn = s.retn := rfl
@[simp] theorem State.setIdle_rete (s : State) (v : Bool) : (s.setIdle v).rete = s.rete := rfl
@[simp] theorem State.setIdle_loop0 (s : State) (v : Bool) : (s.setIdle v).loop0 = s.loop0 := rfl
@[simp] theorem State.setIdle_loop1 (s : State) (v : Bool) : (s.setIdle v).loop1 = s.loop1 := rfl
@[simp] theorem State.setIdle_seqstat (s : State) (v : Bool) : (s.setIdle v).seqstat = s.seqstat := rfl
@[simp] theorem State.setIdle_syscfg (s : State) (v : Bool) : (s.setIdle v).syscfg = s.syscfg := rfl
@[simp] theorem State.setIdle_cycles (s : State) (v : Bool) : (s.setIdle v).cycles = s.cycles := rfl
@[simp] theorem State.setIdle_cycles2 (s : State) (v : Bool) : (s.setIdle v).cycles2 = s.cycles2 := rfl
@[simp] theorem State.setIdle_astat (s : State) (v : Bool) : (s.setIdle v).astat = s.astat := rfl
@[simp] theorem State.setIdle_imask (s : State) (v : Bool) : (s.setIdle v).imask = s.imask := rfl
@[simp] theorem State.setIdle_ilat (s : State) (v : Bool) : (s.setIdle v).ilat = s.ilat := rfl
@[simp] theorem State.setIdle_ipend (s : State) (v : Bool) : (s.setIdle v).ipend = s.ipend := rfl
@[simp] theorem State.setIdle_evt (s : State) (v : Bool) : (s.setIdle v).evt = s.evt := rfl
@[simp] theorem State.setIdle_sic (s : State) (v : Bool) : (s.setIdle v).sic = s.sic := rfl
@[simp] theorem State.setIdle_idle (s : State) (v : Bool) : (s.setIdle v).idle = v := rfl
@[simp] theorem State.setIdle_doubleFault (s : State) (v : Bool) : (s.setIdle v).doubleFault = s.doubleFault := rfl
@[simp] theorem State.setIdle_mem (s : State) (v : Bool) : (s.setIdle v).mem = s.mem := rfl
@[simp] theorem State.setIdle_memEpoch (s : State) (v : Bool) : (s.setIdle v).memEpoch = s.memEpoch := rfl
@[simp] theorem State.setIdle_plat (s : State) (v : Bool) : (s.setIdle v).plat = s.plat := rfl
@[simp] theorem State.setIdle_env (s : State) (v : Bool) : (s.setIdle v).env = s.env := rfl
@[simp] theorem State.setIdle_draws (s : State) (v : Bool) : (s.setIdle v).draws = s.draws := rfl

@[simp] theorem State.setDoubleFault_pc (s : State) (v : Bool) : (s.setDoubleFault v).pc = s.pc := rfl
@[simp] theorem State.setDoubleFault_d (s : State) (v : Bool) : (s.setDoubleFault v).d = s.d := rfl
@[simp] theorem State.setDoubleFault_p (s : State) (v : Bool) : (s.setDoubleFault v).p = s.p := rfl
@[simp] theorem State.setDoubleFault_ssp (s : State) (v : Bool) : (s.setDoubleFault v).ssp = s.ssp := rfl
@[simp] theorem State.setDoubleFault_usp (s : State) (v : Bool) : (s.setDoubleFault v).usp = s.usp := rfl
@[simp] theorem State.setDoubleFault_fp (s : State) (v : Bool) : (s.setDoubleFault v).fp = s.fp := rfl
@[simp] theorem State.setDoubleFault_rets (s : State) (v : Bool) : (s.setDoubleFault v).rets = s.rets := rfl
@[simp] theorem State.setDoubleFault_reti (s : State) (v : Bool) : (s.setDoubleFault v).reti = s.reti := rfl
@[simp] theorem State.setDoubleFault_retx (s : State) (v : Bool) : (s.setDoubleFault v).retx = s.retx := rfl
@[simp] theorem State.setDoubleFault_retn (s : State) (v : Bool) : (s.setDoubleFault v).retn = s.retn := rfl
@[simp] theorem State.setDoubleFault_rete (s : State) (v : Bool) : (s.setDoubleFault v).rete = s.rete := rfl
@[simp] theorem State.setDoubleFault_loop0 (s : State) (v : Bool) : (s.setDoubleFault v).loop0 = s.loop0 := rfl
@[simp] theorem State.setDoubleFault_loop1 (s : State) (v : Bool) : (s.setDoubleFault v).loop1 = s.loop1 := rfl
@[simp] theorem State.setDoubleFault_seqstat (s : State) (v : Bool) : (s.setDoubleFault v).seqstat = s.seqstat := rfl
@[simp] theorem State.setDoubleFault_syscfg (s : State) (v : Bool) : (s.setDoubleFault v).syscfg = s.syscfg := rfl
@[simp] theorem State.setDoubleFault_cycles (s : State) (v : Bool) : (s.setDoubleFault v).cycles = s.cycles := rfl
@[simp] theorem State.setDoubleFault_cycles2 (s : State) (v : Bool) : (s.setDoubleFault v).cycles2 = s.cycles2 := rfl
@[simp] theorem State.setDoubleFault_astat (s : State) (v : Bool) : (s.setDoubleFault v).astat = s.astat := rfl
@[simp] theorem State.setDoubleFault_imask (s : State) (v : Bool) : (s.setDoubleFault v).imask = s.imask := rfl
@[simp] theorem State.setDoubleFault_ilat (s : State) (v : Bool) : (s.setDoubleFault v).ilat = s.ilat := rfl
@[simp] theorem State.setDoubleFault_ipend (s : State) (v : Bool) : (s.setDoubleFault v).ipend = s.ipend := rfl
@[simp] theorem State.setDoubleFault_evt (s : State) (v : Bool) : (s.setDoubleFault v).evt = s.evt := rfl
@[simp] theorem State.setDoubleFault_sic (s : State) (v : Bool) : (s.setDoubleFault v).sic = s.sic := rfl
@[simp] theorem State.setDoubleFault_idle (s : State) (v : Bool) : (s.setDoubleFault v).idle = s.idle := rfl
@[simp] theorem State.setDoubleFault_doubleFault (s : State) (v : Bool) : (s.setDoubleFault v).doubleFault = v := rfl
@[simp] theorem State.setDoubleFault_mem (s : State) (v : Bool) : (s.setDoubleFault v).mem = s.mem := rfl
@[simp] theorem State.setDoubleFault_memEpoch (s : State) (v : Bool) : (s.setDoubleFault v).memEpoch = s.memEpoch := rfl
@[simp] theorem State.setDoubleFault_plat (s : State) (v : Bool) : (s.setDoubleFault v).plat = s.plat := rfl
@[simp] theorem State.setDoubleFault_env (s : State) (v : Bool) : (s.setDoubleFault v).env = s.env := rfl
@[simp] theorem State.setDoubleFault_draws (s : State) (v : Bool) : (s.setDoubleFault v).draws = s.draws := rfl

@[simp] theorem State.setMem_pc (s : State) (v : Memory) : (s.setMem v).pc = s.pc := rfl
@[simp] theorem State.setMem_d (s : State) (v : Memory) : (s.setMem v).d = s.d := rfl
@[simp] theorem State.setMem_p (s : State) (v : Memory) : (s.setMem v).p = s.p := rfl
@[simp] theorem State.setMem_ssp (s : State) (v : Memory) : (s.setMem v).ssp = s.ssp := rfl
@[simp] theorem State.setMem_usp (s : State) (v : Memory) : (s.setMem v).usp = s.usp := rfl
@[simp] theorem State.setMem_fp (s : State) (v : Memory) : (s.setMem v).fp = s.fp := rfl
@[simp] theorem State.setMem_rets (s : State) (v : Memory) : (s.setMem v).rets = s.rets := rfl
@[simp] theorem State.setMem_reti (s : State) (v : Memory) : (s.setMem v).reti = s.reti := rfl
@[simp] theorem State.setMem_retx (s : State) (v : Memory) : (s.setMem v).retx = s.retx := rfl
@[simp] theorem State.setMem_retn (s : State) (v : Memory) : (s.setMem v).retn = s.retn := rfl
@[simp] theorem State.setMem_rete (s : State) (v : Memory) : (s.setMem v).rete = s.rete := rfl
@[simp] theorem State.setMem_loop0 (s : State) (v : Memory) : (s.setMem v).loop0 = s.loop0 := rfl
@[simp] theorem State.setMem_loop1 (s : State) (v : Memory) : (s.setMem v).loop1 = s.loop1 := rfl
@[simp] theorem State.setMem_seqstat (s : State) (v : Memory) : (s.setMem v).seqstat = s.seqstat := rfl
@[simp] theorem State.setMem_syscfg (s : State) (v : Memory) : (s.setMem v).syscfg = s.syscfg := rfl
@[simp] theorem State.setMem_cycles (s : State) (v : Memory) : (s.setMem v).cycles = s.cycles := rfl
@[simp] theorem State.setMem_cycles2 (s : State) (v : Memory) : (s.setMem v).cycles2 = s.cycles2 := rfl
@[simp] theorem State.setMem_astat (s : State) (v : Memory) : (s.setMem v).astat = s.astat := rfl
@[simp] theorem State.setMem_imask (s : State) (v : Memory) : (s.setMem v).imask = s.imask := rfl
@[simp] theorem State.setMem_ilat (s : State) (v : Memory) : (s.setMem v).ilat = s.ilat := rfl
@[simp] theorem State.setMem_ipend (s : State) (v : Memory) : (s.setMem v).ipend = s.ipend := rfl
@[simp] theorem State.setMem_evt (s : State) (v : Memory) : (s.setMem v).evt = s.evt := rfl
@[simp] theorem State.setMem_sic (s : State) (v : Memory) : (s.setMem v).sic = s.sic := rfl
@[simp] theorem State.setMem_idle (s : State) (v : Memory) : (s.setMem v).idle = s.idle := rfl
@[simp] theorem State.setMem_doubleFault (s : State) (v : Memory) : (s.setMem v).doubleFault = s.doubleFault := rfl
@[simp] theorem State.setMem_mem (s : State) (v : Memory) : (s.setMem v).mem = v := rfl
@[simp] theorem State.setMem_memEpoch (s : State) (v : Memory) : (s.setMem v).memEpoch = s.memEpoch := rfl
@[simp] theorem State.setMem_plat (s : State) (v : Memory) : (s.setMem v).plat = s.plat := rfl
@[simp] theorem State.setMem_env (s : State) (v : Memory) : (s.setMem v).env = s.env := rfl
@[simp] theorem State.setMem_draws (s : State) (v : Memory) : (s.setMem v).draws = s.draws := rfl

@[simp] theorem State.setEnv_pc (s : State) (v : List EnvInput) : (s.setEnv v).pc = s.pc := rfl
@[simp] theorem State.setEnv_d (s : State) (v : List EnvInput) : (s.setEnv v).d = s.d := rfl
@[simp] theorem State.setEnv_p (s : State) (v : List EnvInput) : (s.setEnv v).p = s.p := rfl
@[simp] theorem State.setEnv_ssp (s : State) (v : List EnvInput) : (s.setEnv v).ssp = s.ssp := rfl
@[simp] theorem State.setEnv_usp (s : State) (v : List EnvInput) : (s.setEnv v).usp = s.usp := rfl
@[simp] theorem State.setEnv_fp (s : State) (v : List EnvInput) : (s.setEnv v).fp = s.fp := rfl
@[simp] theorem State.setEnv_rets (s : State) (v : List EnvInput) : (s.setEnv v).rets = s.rets := rfl
@[simp] theorem State.setEnv_reti (s : State) (v : List EnvInput) : (s.setEnv v).reti = s.reti := rfl
@[simp] theorem State.setEnv_retx (s : State) (v : List EnvInput) : (s.setEnv v).retx = s.retx := rfl
@[simp] theorem State.setEnv_retn (s : State) (v : List EnvInput) : (s.setEnv v).retn = s.retn := rfl
@[simp] theorem State.setEnv_rete (s : State) (v : List EnvInput) : (s.setEnv v).rete = s.rete := rfl
@[simp] theorem State.setEnv_loop0 (s : State) (v : List EnvInput) : (s.setEnv v).loop0 = s.loop0 := rfl
@[simp] theorem State.setEnv_loop1 (s : State) (v : List EnvInput) : (s.setEnv v).loop1 = s.loop1 := rfl
@[simp] theorem State.setEnv_seqstat (s : State) (v : List EnvInput) : (s.setEnv v).seqstat = s.seqstat := rfl
@[simp] theorem State.setEnv_syscfg (s : State) (v : List EnvInput) : (s.setEnv v).syscfg = s.syscfg := rfl
@[simp] theorem State.setEnv_cycles (s : State) (v : List EnvInput) : (s.setEnv v).cycles = s.cycles := rfl
@[simp] theorem State.setEnv_cycles2 (s : State) (v : List EnvInput) : (s.setEnv v).cycles2 = s.cycles2 := rfl
@[simp] theorem State.setEnv_astat (s : State) (v : List EnvInput) : (s.setEnv v).astat = s.astat := rfl
@[simp] theorem State.setEnv_imask (s : State) (v : List EnvInput) : (s.setEnv v).imask = s.imask := rfl
@[simp] theorem State.setEnv_ilat (s : State) (v : List EnvInput) : (s.setEnv v).ilat = s.ilat := rfl
@[simp] theorem State.setEnv_ipend (s : State) (v : List EnvInput) : (s.setEnv v).ipend = s.ipend := rfl
@[simp] theorem State.setEnv_evt (s : State) (v : List EnvInput) : (s.setEnv v).evt = s.evt := rfl
@[simp] theorem State.setEnv_sic (s : State) (v : List EnvInput) : (s.setEnv v).sic = s.sic := rfl
@[simp] theorem State.setEnv_idle (s : State) (v : List EnvInput) : (s.setEnv v).idle = s.idle := rfl
@[simp] theorem State.setEnv_doubleFault (s : State) (v : List EnvInput) : (s.setEnv v).doubleFault = s.doubleFault := rfl
@[simp] theorem State.setEnv_mem (s : State) (v : List EnvInput) : (s.setEnv v).mem = s.mem := rfl
@[simp] theorem State.setEnv_memEpoch (s : State) (v : List EnvInput) : (s.setEnv v).memEpoch = s.memEpoch := rfl
@[simp] theorem State.setEnv_plat (s : State) (v : List EnvInput) : (s.setEnv v).plat = s.plat := rfl
@[simp] theorem State.setEnv_env (s : State) (v : List EnvInput) : (s.setEnv v).env = v := rfl
@[simp] theorem State.setEnv_draws (s : State) (v : List EnvInput) : (s.setEnv v).draws = s.draws := rfl

@[simp] theorem State.setDraws_pc (s : State) (v : Nat) : (s.setDraws v).pc = s.pc := rfl
@[simp] theorem State.setDraws_d (s : State) (v : Nat) : (s.setDraws v).d = s.d := rfl
@[simp] theorem State.setDraws_p (s : State) (v : Nat) : (s.setDraws v).p = s.p := rfl
@[simp] theorem State.setDraws_ssp (s : State) (v : Nat) : (s.setDraws v).ssp = s.ssp := rfl
@[simp] theorem State.setDraws_usp (s : State) (v : Nat) : (s.setDraws v).usp = s.usp := rfl
@[simp] theorem State.setDraws_fp (s : State) (v : Nat) : (s.setDraws v).fp = s.fp := rfl
@[simp] theorem State.setDraws_rets (s : State) (v : Nat) : (s.setDraws v).rets = s.rets := rfl
@[simp] theorem State.setDraws_reti (s : State) (v : Nat) : (s.setDraws v).reti = s.reti := rfl
@[simp] theorem State.setDraws_retx (s : State) (v : Nat) : (s.setDraws v).retx = s.retx := rfl
@[simp] theorem State.setDraws_retn (s : State) (v : Nat) : (s.setDraws v).retn = s.retn := rfl
@[simp] theorem State.setDraws_rete (s : State) (v : Nat) : (s.setDraws v).rete = s.rete := rfl
@[simp] theorem State.setDraws_loop0 (s : State) (v : Nat) : (s.setDraws v).loop0 = s.loop0 := rfl
@[simp] theorem State.setDraws_loop1 (s : State) (v : Nat) : (s.setDraws v).loop1 = s.loop1 := rfl
@[simp] theorem State.setDraws_seqstat (s : State) (v : Nat) : (s.setDraws v).seqstat = s.seqstat := rfl
@[simp] theorem State.setDraws_syscfg (s : State) (v : Nat) : (s.setDraws v).syscfg = s.syscfg := rfl
@[simp] theorem State.setDraws_cycles (s : State) (v : Nat) : (s.setDraws v).cycles = s.cycles := rfl
@[simp] theorem State.setDraws_cycles2 (s : State) (v : Nat) : (s.setDraws v).cycles2 = s.cycles2 := rfl
@[simp] theorem State.setDraws_astat (s : State) (v : Nat) : (s.setDraws v).astat = s.astat := rfl
@[simp] theorem State.setDraws_imask (s : State) (v : Nat) : (s.setDraws v).imask = s.imask := rfl
@[simp] theorem State.setDraws_ilat (s : State) (v : Nat) : (s.setDraws v).ilat = s.ilat := rfl
@[simp] theorem State.setDraws_ipend (s : State) (v : Nat) : (s.setDraws v).ipend = s.ipend := rfl
@[simp] theorem State.setDraws_evt (s : State) (v : Nat) : (s.setDraws v).evt = s.evt := rfl
@[simp] theorem State.setDraws_sic (s : State) (v : Nat) : (s.setDraws v).sic = s.sic := rfl
@[simp] theorem State.setDraws_idle (s : State) (v : Nat) : (s.setDraws v).idle = s.idle := rfl
@[simp] theorem State.setDraws_doubleFault (s : State) (v : Nat) : (s.setDraws v).doubleFault = s.doubleFault := rfl
@[simp] theorem State.setDraws_mem (s : State) (v : Nat) : (s.setDraws v).mem = s.mem := rfl
@[simp] theorem State.setDraws_memEpoch (s : State) (v : Nat) : (s.setDraws v).memEpoch = s.memEpoch := rfl
@[simp] theorem State.setDraws_plat (s : State) (v : Nat) : (s.setDraws v).plat = s.plat := rfl
@[simp] theorem State.setDraws_env (s : State) (v : Nat) : (s.setDraws v).env = s.env := rfl
@[simp] theorem State.setDraws_draws (s : State) (v : Nat) : (s.setDraws v).draws = v := rfl

@[simp] theorem State.setD_pc (s : State) (r : DReg) (v : Word) : (s.setD r v).pc = s.pc := rfl
@[simp] theorem State.setD_d (s : State) (r : DReg) (v : Word) : (s.setD r v).d = s.d.set r.val v r.isLt := rfl
@[simp] theorem State.setD_p (s : State) (r : DReg) (v : Word) : (s.setD r v).p = s.p := rfl
@[simp] theorem State.setD_ssp (s : State) (r : DReg) (v : Word) : (s.setD r v).ssp = s.ssp := rfl
@[simp] theorem State.setD_usp (s : State) (r : DReg) (v : Word) : (s.setD r v).usp = s.usp := rfl
@[simp] theorem State.setD_fp (s : State) (r : DReg) (v : Word) : (s.setD r v).fp = s.fp := rfl
@[simp] theorem State.setD_rets (s : State) (r : DReg) (v : Word) : (s.setD r v).rets = s.rets := rfl
@[simp] theorem State.setD_reti (s : State) (r : DReg) (v : Word) : (s.setD r v).reti = s.reti := rfl
@[simp] theorem State.setD_retx (s : State) (r : DReg) (v : Word) : (s.setD r v).retx = s.retx := rfl
@[simp] theorem State.setD_retn (s : State) (r : DReg) (v : Word) : (s.setD r v).retn = s.retn := rfl
@[simp] theorem State.setD_rete (s : State) (r : DReg) (v : Word) : (s.setD r v).rete = s.rete := rfl
@[simp] theorem State.setD_loop0 (s : State) (r : DReg) (v : Word) : (s.setD r v).loop0 = s.loop0 := rfl
@[simp] theorem State.setD_loop1 (s : State) (r : DReg) (v : Word) : (s.setD r v).loop1 = s.loop1 := rfl
@[simp] theorem State.setD_seqstat (s : State) (r : DReg) (v : Word) : (s.setD r v).seqstat = s.seqstat := rfl
@[simp] theorem State.setD_syscfg (s : State) (r : DReg) (v : Word) : (s.setD r v).syscfg = s.syscfg := rfl
@[simp] theorem State.setD_cycles (s : State) (r : DReg) (v : Word) : (s.setD r v).cycles = s.cycles := rfl
@[simp] theorem State.setD_cycles2 (s : State) (r : DReg) (v : Word) : (s.setD r v).cycles2 = s.cycles2 := rfl
@[simp] theorem State.setD_astat (s : State) (r : DReg) (v : Word) : (s.setD r v).astat = s.astat := rfl
@[simp] theorem State.setD_imask (s : State) (r : DReg) (v : Word) : (s.setD r v).imask = s.imask := rfl
@[simp] theorem State.setD_ilat (s : State) (r : DReg) (v : Word) : (s.setD r v).ilat = s.ilat := rfl
@[simp] theorem State.setD_ipend (s : State) (r : DReg) (v : Word) : (s.setD r v).ipend = s.ipend := rfl
@[simp] theorem State.setD_evt (s : State) (r : DReg) (v : Word) : (s.setD r v).evt = s.evt := rfl
@[simp] theorem State.setD_sic (s : State) (r : DReg) (v : Word) : (s.setD r v).sic = s.sic := rfl
@[simp] theorem State.setD_idle (s : State) (r : DReg) (v : Word) : (s.setD r v).idle = s.idle := rfl
@[simp] theorem State.setD_doubleFault (s : State) (r : DReg) (v : Word) : (s.setD r v).doubleFault = s.doubleFault := rfl
@[simp] theorem State.setD_mem (s : State) (r : DReg) (v : Word) : (s.setD r v).mem = s.mem := rfl
@[simp] theorem State.setD_memEpoch (s : State) (r : DReg) (v : Word) : (s.setD r v).memEpoch = s.memEpoch := rfl
@[simp] theorem State.setD_plat (s : State) (r : DReg) (v : Word) : (s.setD r v).plat = s.plat := rfl
@[simp] theorem State.setD_env (s : State) (r : DReg) (v : Word) : (s.setD r v).env = s.env := rfl
@[simp] theorem State.setD_draws (s : State) (r : DReg) (v : Word) : (s.setD r v).draws = s.draws := rfl

@[simp] theorem State.setP_pc (s : State) (r : Fin 6) (v : Word) : (s.setP r v).pc = s.pc := rfl
@[simp] theorem State.setP_d (s : State) (r : Fin 6) (v : Word) : (s.setP r v).d = s.d := rfl
@[simp] theorem State.setP_p (s : State) (r : Fin 6) (v : Word) : (s.setP r v).p = s.p.set r.val v r.isLt := rfl
@[simp] theorem State.setP_ssp (s : State) (r : Fin 6) (v : Word) : (s.setP r v).ssp = s.ssp := rfl
@[simp] theorem State.setP_usp (s : State) (r : Fin 6) (v : Word) : (s.setP r v).usp = s.usp := rfl
@[simp] theorem State.setP_fp (s : State) (r : Fin 6) (v : Word) : (s.setP r v).fp = s.fp := rfl
@[simp] theorem State.setP_rets (s : State) (r : Fin 6) (v : Word) : (s.setP r v).rets = s.rets := rfl
@[simp] theorem State.setP_reti (s : State) (r : Fin 6) (v : Word) : (s.setP r v).reti = s.reti := rfl
@[simp] theorem State.setP_retx (s : State) (r : Fin 6) (v : Word) : (s.setP r v).retx = s.retx := rfl
@[simp] theorem State.setP_retn (s : State) (r : Fin 6) (v : Word) : (s.setP r v).retn = s.retn := rfl
@[simp] theorem State.setP_rete (s : State) (r : Fin 6) (v : Word) : (s.setP r v).rete = s.rete := rfl
@[simp] theorem State.setP_loop0 (s : State) (r : Fin 6) (v : Word) : (s.setP r v).loop0 = s.loop0 := rfl
@[simp] theorem State.setP_loop1 (s : State) (r : Fin 6) (v : Word) : (s.setP r v).loop1 = s.loop1 := rfl
@[simp] theorem State.setP_seqstat (s : State) (r : Fin 6) (v : Word) : (s.setP r v).seqstat = s.seqstat := rfl
@[simp] theorem State.setP_syscfg (s : State) (r : Fin 6) (v : Word) : (s.setP r v).syscfg = s.syscfg := rfl
@[simp] theorem State.setP_cycles (s : State) (r : Fin 6) (v : Word) : (s.setP r v).cycles = s.cycles := rfl
@[simp] theorem State.setP_cycles2 (s : State) (r : Fin 6) (v : Word) : (s.setP r v).cycles2 = s.cycles2 := rfl
@[simp] theorem State.setP_astat (s : State) (r : Fin 6) (v : Word) : (s.setP r v).astat = s.astat := rfl
@[simp] theorem State.setP_imask (s : State) (r : Fin 6) (v : Word) : (s.setP r v).imask = s.imask := rfl
@[simp] theorem State.setP_ilat (s : State) (r : Fin 6) (v : Word) : (s.setP r v).ilat = s.ilat := rfl
@[simp] theorem State.setP_ipend (s : State) (r : Fin 6) (v : Word) : (s.setP r v).ipend = s.ipend := rfl
@[simp] theorem State.setP_evt (s : State) (r : Fin 6) (v : Word) : (s.setP r v).evt = s.evt := rfl
@[simp] theorem State.setP_sic (s : State) (r : Fin 6) (v : Word) : (s.setP r v).sic = s.sic := rfl
@[simp] theorem State.setP_idle (s : State) (r : Fin 6) (v : Word) : (s.setP r v).idle = s.idle := rfl
@[simp] theorem State.setP_doubleFault (s : State) (r : Fin 6) (v : Word) : (s.setP r v).doubleFault = s.doubleFault := rfl
@[simp] theorem State.setP_mem (s : State) (r : Fin 6) (v : Word) : (s.setP r v).mem = s.mem := rfl
@[simp] theorem State.setP_memEpoch (s : State) (r : Fin 6) (v : Word) : (s.setP r v).memEpoch = s.memEpoch := rfl
@[simp] theorem State.setP_plat (s : State) (r : Fin 6) (v : Word) : (s.setP r v).plat = s.plat := rfl
@[simp] theorem State.setP_env (s : State) (r : Fin 6) (v : Word) : (s.setP r v).env = s.env := rfl
@[simp] theorem State.setP_draws (s : State) (r : Fin 6) (v : Word) : (s.setP r v).draws = s.draws := rfl

@[simp] theorem State.setEvt_pc (s : State) (n : Fin 16) (v : Word) : (s.setEvt n v).pc = s.pc := rfl
@[simp] theorem State.setEvt_d (s : State) (n : Fin 16) (v : Word) : (s.setEvt n v).d = s.d := rfl
@[simp] theorem State.setEvt_p (s : State) (n : Fin 16) (v : Word) : (s.setEvt n v).p = s.p := rfl
@[simp] theorem State.setEvt_ssp (s : State) (n : Fin 16) (v : Word) : (s.setEvt n v).ssp = s.ssp := rfl
@[simp] theorem State.setEvt_usp (s : State) (n : Fin 16) (v : Word) : (s.setEvt n v).usp = s.usp := rfl
@[simp] theorem State.setEvt_fp (s : State) (n : Fin 16) (v : Word) : (s.setEvt n v).fp = s.fp := rfl
@[simp] theorem State.setEvt_rets (s : State) (n : Fin 16) (v : Word) : (s.setEvt n v).rets = s.rets := rfl
@[simp] theorem State.setEvt_reti (s : State) (n : Fin 16) (v : Word) : (s.setEvt n v).reti = s.reti := rfl
@[simp] theorem State.setEvt_retx (s : State) (n : Fin 16) (v : Word) : (s.setEvt n v).retx = s.retx := rfl
@[simp] theorem State.setEvt_retn (s : State) (n : Fin 16) (v : Word) : (s.setEvt n v).retn = s.retn := rfl
@[simp] theorem State.setEvt_rete (s : State) (n : Fin 16) (v : Word) : (s.setEvt n v).rete = s.rete := rfl
@[simp] theorem State.setEvt_loop0 (s : State) (n : Fin 16) (v : Word) : (s.setEvt n v).loop0 = s.loop0 := rfl
@[simp] theorem State.setEvt_loop1 (s : State) (n : Fin 16) (v : Word) : (s.setEvt n v).loop1 = s.loop1 := rfl
@[simp] theorem State.setEvt_seqstat (s : State) (n : Fin 16) (v : Word) : (s.setEvt n v).seqstat = s.seqstat := rfl
@[simp] theorem State.setEvt_syscfg (s : State) (n : Fin 16) (v : Word) : (s.setEvt n v).syscfg = s.syscfg := rfl
@[simp] theorem State.setEvt_cycles (s : State) (n : Fin 16) (v : Word) : (s.setEvt n v).cycles = s.cycles := rfl
@[simp] theorem State.setEvt_cycles2 (s : State) (n : Fin 16) (v : Word) : (s.setEvt n v).cycles2 = s.cycles2 := rfl
@[simp] theorem State.setEvt_astat (s : State) (n : Fin 16) (v : Word) : (s.setEvt n v).astat = s.astat := rfl
@[simp] theorem State.setEvt_imask (s : State) (n : Fin 16) (v : Word) : (s.setEvt n v).imask = s.imask := rfl
@[simp] theorem State.setEvt_ilat (s : State) (n : Fin 16) (v : Word) : (s.setEvt n v).ilat = s.ilat := rfl
@[simp] theorem State.setEvt_ipend (s : State) (n : Fin 16) (v : Word) : (s.setEvt n v).ipend = s.ipend := rfl
@[simp] theorem State.setEvt_evt (s : State) (n : Fin 16) (v : Word) : (s.setEvt n v).evt = s.evt.set n.val v n.isLt := rfl
@[simp] theorem State.setEvt_sic (s : State) (n : Fin 16) (v : Word) : (s.setEvt n v).sic = s.sic := rfl
@[simp] theorem State.setEvt_idle (s : State) (n : Fin 16) (v : Word) : (s.setEvt n v).idle = s.idle := rfl
@[simp] theorem State.setEvt_doubleFault (s : State) (n : Fin 16) (v : Word) : (s.setEvt n v).doubleFault = s.doubleFault := rfl
@[simp] theorem State.setEvt_mem (s : State) (n : Fin 16) (v : Word) : (s.setEvt n v).mem = s.mem := rfl
@[simp] theorem State.setEvt_memEpoch (s : State) (n : Fin 16) (v : Word) : (s.setEvt n v).memEpoch = s.memEpoch := rfl
@[simp] theorem State.setEvt_plat (s : State) (n : Fin 16) (v : Word) : (s.setEvt n v).plat = s.plat := rfl
@[simp] theorem State.setEvt_env (s : State) (n : Fin 16) (v : Word) : (s.setEvt n v).env = s.env := rfl
@[simp] theorem State.setEvt_draws (s : State) (n : Fin 16) (v : Word) : (s.setEvt n v).draws = s.draws := rfl

end Sys2Proof.Machine
end

