-- ==== Sys2Proof/Laws/Operands.lean ====
section
/-! SUPPORT. What the operand updates of Operands.lean leave alone: one lemma per field. -/

namespace Sys2Proof.Machine

/-- The mode depends on IPEND alone (60_exceptions.md R420). -/
theorem State.mode_congr {s t : State} (h : t.ipend = s.ipend) : t.mode = s.mode := by
  simp only [State.mode, h]

/-- Supervisor mode: no emulation, and some event active (60_exceptions.md R420). -/
theorem State.mode_supervisor {s : State} (h0 : s.ipend.getLsbD 0 = false) (h : s.ipend &&& 0xFFEE#16 ≠ 0#16) :
    s.mode = .supervisor := by
  unfold State.mode
  rw [h0, if_neg Bool.false_ne_true, if_pos h]

/-- User mode: no event active (60_exceptions.md R420). -/
theorem State.mode_user_iff (s : State) : s.mode = .user ↔ s.ipend.getLsbD 0 = false ∧ s.ipend &&& 0xFFEE#16 = 0#16 := by
  unfold State.mode
  cases h0 : s.ipend.getLsbD 0
  · rw [if_neg Bool.false_ne_true]
    by_cases h : s.ipend &&& 0xFFEE#16 = 0#16
    · rw [if_neg (not_not_intro h)]; simp [h]
    · rw [if_pos h]; simp [h]
  · rw [if_pos rfl]; simp

/-- No handler of levels 0 to 3 runs in User mode (60_exceptions.md R392, R420). -/
theorem State.user_low {s : State} (h : s.mode = .user) : s.ipend &&& 0xFFEF#16 = 0#16 := by
  obtain ⟨h0, h1⟩ := s.mode_user_iff.1 h
  apply BitVec.eq_of_getLsbD_eq
  intro i hi
  have h2 : (s.ipend &&& 0xFFEE#16).getLsbD i = false := by rw [h1]; simp
  clear h h1
  interval_cases i <;> simp_all

@[simp] theorem State.setPc_mode (s : State) v : (s.setPc v).mode = s.mode := rfl
@[simp] theorem State.setSsp_mode (s : State) v : (s.setSsp v).mode = s.mode := rfl
@[simp] theorem State.setUsp_mode (s : State) v : (s.setUsp v).mode = s.mode := rfl
@[simp] theorem State.setFp_mode (s : State) v : (s.setFp v).mode = s.mode := rfl
@[simp] theorem State.setRets_mode (s : State) v : (s.setRets v).mode = s.mode := rfl
@[simp] theorem State.setReti_mode (s : State) v : (s.setReti v).mode = s.mode := rfl
@[simp] theorem State.setRetx_mode (s : State) v : (s.setRetx v).mode = s.mode := rfl
@[simp] theorem State.setRetn_mode (s : State) v : (s.setRetn v).mode = s.mode := rfl
@[simp] theorem State.setRete_mode (s : State) v : (s.setRete v).mode = s.mode := rfl
@[simp] theorem State.setLoop0_mode (s : State) v : (s.setLoop0 v).mode = s.mode := rfl
@[simp] theorem State.setLoop1_mode (s : State) v : (s.setLoop1 v).mode = s.mode := rfl
@[simp] theorem State.setSeqstat_mode (s : State) v : (s.setSeqstat v).mode = s.mode := rfl
@[simp] theorem State.setSyscfg_mode (s : State) v : (s.setSyscfg v).mode = s.mode := rfl
@[simp] theorem State.setCycles_mode (s : State) v : (s.setCycles v).mode = s.mode := rfl
@[simp] theorem State.setCycles2_mode (s : State) v : (s.setCycles2 v).mode = s.mode := rfl
@[simp] theorem State.setAstat_mode (s : State) v : (s.setAstat v).mode = s.mode := rfl
@[simp] theorem State.setImask_mode (s : State) v : (s.setImask v).mode = s.mode := rfl
@[simp] theorem State.setIlat_mode (s : State) v : (s.setIlat v).mode = s.mode := rfl
@[simp] theorem State.setSic_mode (s : State) v : (s.setSic v).mode = s.mode := rfl
@[simp] theorem State.setIdle_mode (s : State) v : (s.setIdle v).mode = s.mode := rfl
@[simp] theorem State.setDoubleFault_mode (s : State) v : (s.setDoubleFault v).mode = s.mode := rfl
@[simp] theorem State.setMem_mode (s : State) v : (s.setMem v).mode = s.mode := rfl
@[simp] theorem State.setEnv_mode (s : State) v : (s.setEnv v).mode = s.mode := rfl
@[simp] theorem State.setDraws_mode (s : State) v : (s.setDraws v).mode = s.mode := rfl
@[simp] theorem State.setD_mode (s : State) (r : DReg) (v : Word) : (s.setD r v).mode = s.mode := rfl
@[simp] theorem State.setP_mode (s : State) (r : Fin 6) (v : Word) : (s.setP r v).mode = s.mode := rfl
@[simp] theorem State.setEvt_mode (s : State) (n : Fin 16) (v : Word) : (s.setEvt n v).mode = s.mode := rfl

@[simp] theorem State.setSp_pc (s : State) (v : Word) : (s.setSp v).pc = s.pc := by unfold State.setSp; split <;> rfl
@[simp] theorem State.setSp_d (s : State) (v : Word) : (s.setSp v).d = s.d := by unfold State.setSp; split <;> rfl
@[simp] theorem State.setSp_p (s : State) (v : Word) : (s.setSp v).p = s.p := by unfold State.setSp; split <;> rfl
@[simp] theorem State.setSp_fp (s : State) (v : Word) : (s.setSp v).fp = s.fp := by unfold State.setSp; split <;> rfl
@[simp] theorem State.setSp_rets (s : State) (v : Word) : (s.setSp v).rets = s.rets := by unfold State.setSp; split <;> rfl
@[simp] theorem State.setSp_reti (s : State) (v : Word) : (s.setSp v).reti = s.reti := by unfold State.setSp; split <;> rfl
@[simp] theorem State.setSp_retx (s : State) (v : Word) : (s.setSp v).retx = s.retx := by unfold State.setSp; split <;> rfl
@[simp] theorem State.setSp_retn (s : State) (v : Word) : (s.setSp v).retn = s.retn := by unfold State.setSp; split <;> rfl
@[simp] theorem State.setSp_rete (s : State) (v : Word) : (s.setSp v).rete = s.rete := by unfold State.setSp; split <;> rfl
@[simp] theorem State.setSp_loop0 (s : State) (v : Word) : (s.setSp v).loop0 = s.loop0 := by unfold State.setSp; split <;> rfl
@[simp] theorem State.setSp_loop1 (s : State) (v : Word) : (s.setSp v).loop1 = s.loop1 := by unfold State.setSp; split <;> rfl
@[simp] theorem State.setSp_seqstat (s : State) (v : Word) : (s.setSp v).seqstat = s.seqstat := by unfold State.setSp; split <;> rfl
@[simp] theorem State.setSp_syscfg (s : State) (v : Word) : (s.setSp v).syscfg = s.syscfg := by unfold State.setSp; split <;> rfl
@[simp] theorem State.setSp_cycles (s : State) (v : Word) : (s.setSp v).cycles = s.cycles := by unfold State.setSp; split <;> rfl
@[simp] theorem State.setSp_cycles2 (s : State) (v : Word) : (s.setSp v).cycles2 = s.cycles2 := by unfold State.setSp; split <;> rfl
@[simp] theorem State.setSp_astat (s : State) (v : Word) : (s.setSp v).astat = s.astat := by unfold State.setSp; split <;> rfl
@[simp] theorem State.setSp_imask (s : State) (v : Word) : (s.setSp v).imask = s.imask := by unfold State.setSp; split <;> rfl
@[simp] theorem State.setSp_ilat (s : State) (v : Word) : (s.setSp v).ilat = s.ilat := by unfold State.setSp; split <;> rfl
@[simp] theorem State.setSp_ipend (s : State) (v : Word) : (s.setSp v).ipend = s.ipend := by unfold State.setSp; split <;> rfl
@[simp] theorem State.setSp_evt (s : State) (v : Word) : (s.setSp v).evt = s.evt := by unfold State.setSp; split <;> rfl
@[simp] theorem State.setSp_sic (s : State) (v : Word) : (s.setSp v).sic = s.sic := by unfold State.setSp; split <;> rfl
@[simp] theorem State.setSp_idle (s : State) (v : Word) : (s.setSp v).idle = s.idle := by unfold State.setSp; split <;> rfl
@[simp] theorem State.setSp_doubleFault (s : State) (v : Word) : (s.setSp v).doubleFault = s.doubleFault := by unfold State.setSp; split <;> rfl
@[simp] theorem State.setSp_mem (s : State) (v : Word) : (s.setSp v).mem = s.mem := by unfold State.setSp; split <;> rfl
@[simp] theorem State.setSp_memEpoch (s : State) (v : Word) : (s.setSp v).memEpoch = s.memEpoch := by unfold State.setSp; split <;> rfl
@[simp] theorem State.setSp_plat (s : State) (v : Word) : (s.setSp v).plat = s.plat := by unfold State.setSp; split <;> rfl
@[simp] theorem State.setSp_env (s : State) (v : Word) : (s.setSp v).env = s.env := by unfold State.setSp; split <;> rfl
@[simp] theorem State.setSp_draws (s : State) (v : Word) : (s.setSp v).draws = s.draws := by unfold State.setSp; split <;> rfl
@[simp] theorem State.setSp_mode (s : State) (v : Word) : (s.setSp v).mode = s.mode := State.mode_congr (by simp)

@[simp] theorem State.setSp_ssp (s : State) (v : Word) : (s.setSp v).ssp = if s.mode = .user then s.ssp else v := by
  unfold State.setSp; split <;> rfl
@[simp] theorem State.setSp_usp (s : State) (v : Word) : (s.setSp v).usp = if s.mode = .user then v else s.usp := by
  unfold State.setSp; split <;> rfl

/-- The stack pointer reads as it was written (10_state.md R24). -/
@[simp] theorem State.setSp_sp (s : State) (v : Word) : (s.setSp v).sp = v := by
  unfold State.sp; rw [State.setSp_mode]; split <;> simp [*]

@[simp] theorem State.setPreg_pc (s : State) (r : PReg) (v : Word) : (s.setPreg r v).pc = s.pc := by cases r <;> simp [State.setPreg]
@[simp] theorem State.setPreg_d (s : State) (r : PReg) (v : Word) : (s.setPreg r v).d = s.d := by cases r <;> simp [State.setPreg]
@[simp] theorem State.setPreg_rets (s : State) (r : PReg) (v : Word) : (s.setPreg r v).rets = s.rets := by cases r <;> simp [State.setPreg]
@[simp] theorem State.setPreg_reti (s : State) (r : PReg) (v : Word) : (s.setPreg r v).reti = s.reti := by cases r <;> simp [State.setPreg]
@[simp] theorem State.setPreg_retx (s : State) (r : PReg) (v : Word) : (s.setPreg r v).retx = s.retx := by cases r <;> simp [State.setPreg]
@[simp] theorem State.setPreg_retn (s : State) (r : PReg) (v : Word) : (s.setPreg r v).retn = s.retn := by cases r <;> simp [State.setPreg]
@[simp] theorem State.setPreg_rete (s : State) (r : PReg) (v : Word) : (s.setPreg r v).rete = s.rete := by cases r <;> simp [State.setPreg]
@[simp] theorem State.setPreg_loop0 (s : State) (r : PReg) (v : Word) : (s.setPreg r v).loop0 = s.loop0 := by cases r <;> simp [State.setPreg]
@[simp] theorem State.setPreg_loop1 (s : State) (r : PReg) (v : Word) : (s.setPreg r v).loop1 = s.loop1 := by cases r <;> simp [State.setPreg]
@[simp] theorem State.setPreg_seqstat (s : State) (r : PReg) (v : Word) : (s.setPreg r v).seqstat = s.seqstat := by cases r <;> simp [State.setPreg]
@[simp] theorem State.setPreg_syscfg (s : State) (r : PReg) (v : Word) : (s.setPreg r v).syscfg = s.syscfg := by cases r <;> simp [State.setPreg]
@[simp] theorem State.setPreg_cycles (s : State) (r : PReg) (v : Word) : (s.setPreg r v).cycles = s.cycles := by cases r <;> simp [State.setPreg]
@[simp] theorem State.setPreg_cycles2 (s : State) (r : PReg) (v : Word) : (s.setPreg r v).cycles2 = s.cycles2 := by cases r <;> simp [State.setPreg]
@[simp] theorem State.setPreg_astat (s : State) (r : PReg) (v : Word) : (s.setPreg r v).astat = s.astat := by cases r <;> simp [State.setPreg]
@[simp] theorem State.setPreg_imask (s : State) (r : PReg) (v : Word) : (s.setPreg r v).imask = s.imask := by cases r <;> simp [State.setPreg]
@[simp] theorem State.setPreg_ilat (s : State) (r : PReg) (v : Word) : (s.setPreg r v).ilat = s.ilat := by cases r <;> simp [State.setPreg]
@[simp] theorem State.setPreg_ipend (s : State) (r : PReg) (v : Word) : (s.setPreg r v).ipend = s.ipend := by cases r <;> simp [State.setPreg]
@[simp] theorem State.setPreg_evt (s : State) (r : PReg) (v : Word) : (s.setPreg r v).evt = s.evt := by cases r <;> simp [State.setPreg]
@[simp] theorem State.setPreg_sic (s : State) (r : PReg) (v : Word) : (s.setPreg r v).sic = s.sic := by cases r <;> simp [State.setPreg]
@[simp] theorem State.setPreg_idle (s : State) (r : PReg) (v : Word) : (s.setPreg r v).idle = s.idle := by cases r <;> simp [State.setPreg]
@[simp] theorem State.setPreg_doubleFault (s : State) (r : PReg) (v : Word) : (s.setPreg r v).doubleFault = s.doubleFault := by cases r <;> simp [State.setPreg]
@[simp] theorem State.setPreg_mem (s : State) (r : PReg) (v : Word) : (s.setPreg r v).mem = s.mem := by cases r <;> simp [State.setPreg]
@[simp] theorem State.setPreg_memEpoch (s : State) (r : PReg) (v : Word) : (s.setPreg r v).memEpoch = s.memEpoch := by cases r <;> simp [State.setPreg]
@[simp] theorem State.setPreg_plat (s : State) (r : PReg) (v : Word) : (s.setPreg r v).plat = s.plat := by cases r <;> simp [State.setPreg]
@[simp] theorem State.setPreg_env (s : State) (r : PReg) (v : Word) : (s.setPreg r v).env = s.env := by cases r <;> simp [State.setPreg]
@[simp] theorem State.setPreg_draws (s : State) (r : PReg) (v : Word) : (s.setPreg r v).draws = s.draws := by cases r <;> simp [State.setPreg]
@[simp] theorem State.setPreg_mode (s : State) (r : PReg) (v : Word) : (s.setPreg r v).mode = s.mode := State.mode_congr (by simp)

@[simp] theorem State.setGreg_pc (s : State) (r : GReg) (v : Word) : (s.setGreg r v).pc = s.pc := by cases r <;> simp [State.setGreg]
@[simp] theorem State.setGreg_rets (s : State) (r : GReg) (v : Word) : (s.setGreg r v).rets = s.rets := by cases r <;> simp [State.setGreg]
@[simp] theorem State.setGreg_reti (s : State) (r : GReg) (v : Word) : (s.setGreg r v).reti = s.reti := by cases r <;> simp [State.setGreg]
@[simp] theorem State.setGreg_retx (s : State) (r : GReg) (v : Word) : (s.setGreg r v).retx = s.retx := by cases r <;> simp [State.setGreg]
@[simp] theorem State.setGreg_retn (s : State) (r : GReg) (v : Word) : (s.setGreg r v).retn = s.retn := by cases r <;> simp [State.setGreg]
@[simp] theorem State.setGreg_rete (s : State) (r : GReg) (v : Word) : (s.setGreg r v).rete = s.rete := by cases r <;> simp [State.setGreg]
@[simp] theorem State.setGreg_loop0 (s : State) (r : GReg) (v : Word) : (s.setGreg r v).loop0 = s.loop0 := by cases r <;> simp [State.setGreg]
@[simp] theorem State.setGreg_loop1 (s : State) (r : GReg) (v : Word) : (s.setGreg r v).loop1 = s.loop1 := by cases r <;> simp [State.setGreg]
@[simp] theorem State.setGreg_seqstat (s : State) (r : GReg) (v : Word) : (s.setGreg r v).seqstat = s.seqstat := by cases r <;> simp [State.setGreg]
@[simp] theorem State.setGreg_syscfg (s : State) (r : GReg) (v : Word) : (s.setGreg r v).syscfg = s.syscfg := by cases r <;> simp [State.setGreg]
@[simp] theorem State.setGreg_cycles (s : State) (r : GReg) (v : Word) : (s.setGreg r v).cycles = s.cycles := by cases r <;> simp [State.setGreg]
@[simp] theorem State.setGreg_cycles2 (s : State) (r : GReg) (v : Word) : (s.setGreg r v).cycles2 = s.cycles2 := by cases r <;> simp [State.setGreg]
@[simp] theorem State.setGreg_astat (s : State) (r : GReg) (v : Word) : (s.setGreg r v).astat = s.astat := by cases r <;> simp [State.setGreg]
@[simp] theorem State.setGreg_imask (s : State) (r : GReg) (v : Word) : (s.setGreg r v).imask = s.imask := by cases r <;> simp [State.setGreg]
@[simp] theorem State.setGreg_ilat (s : State) (r : GReg) (v : Word) : (s.setGreg r v).ilat = s.ilat := by cases r <;> simp [State.setGreg]
@[simp] theorem State.setGreg_ipend (s : State) (r : GReg) (v : Word) : (s.setGreg r v).ipend = s.ipend := by cases r <;> simp [State.setGreg]
@[simp] theorem State.setGreg_evt (s : State) (r : GReg) (v : Word) : (s.setGreg r v).evt = s.evt := by cases r <;> simp [State.setGreg]
@[simp] theorem State.setGreg_sic (s : State) (r : GReg) (v : Word) : (s.setGreg r v).sic = s.sic := by cases r <;> simp [State.setGreg]
@[simp] theorem State.setGreg_idle (s : State) (r : GReg) (v : Word) : (s.setGreg r v).idle = s.idle := by cases r <;> simp [State.setGreg]
@[simp] theorem State.setGreg_doubleFault (s : State) (r : GReg) (v : Word) : (s.setGreg r v).doubleFault = s.doubleFault := by cases r <;> simp [State.setGreg]
@[simp] theorem State.setGreg_mem (s : State) (r : GReg) (v : Word) : (s.setGreg r v).mem = s.mem := by cases r <;> simp [State.setGreg]
@[simp] theorem State.setGreg_memEpoch (s : State) (r : GReg) (v : Word) : (s.setGreg r v).memEpoch = s.memEpoch := by cases r <;> simp [State.setGreg]
@[simp] theorem State.setGreg_plat (s : State) (r : GReg) (v : Word) : (s.setGreg r v).plat = s.plat := by cases r <;> simp [State.setGreg]
@[simp] theorem State.setGreg_env (s : State) (r : GReg) (v : Word) : (s.setGreg r v).env = s.env := by cases r <;> simp [State.setGreg]
@[simp] theorem State.setGreg_draws (s : State) (r : GReg) (v : Word) : (s.setGreg r v).draws = s.draws := by cases r <;> simp [State.setGreg]
@[simp] theorem State.setGreg_mode (s : State) (r : GReg) (v : Word) : (s.setGreg r v).mode = s.mode := State.mode_congr (by simp)

@[simp] theorem State.setLoop_pc (s : State) (k : LoopIdx) (u : LoopUnit) : (s.setLoop k u).pc = s.pc := by cases k <;> rfl
@[simp] theorem State.setLoop_d (s : State) (k : LoopIdx) (u : LoopUnit) : (s.setLoop k u).d = s.d := by cases k <;> rfl
@[simp] theorem State.setLoop_p (s : State) (k : LoopIdx) (u : LoopUnit) : (s.setLoop k u).p = s.p := by cases k <;> rfl
@[simp] theorem State.setLoop_ssp (s : State) (k : LoopIdx) (u : LoopUnit) : (s.setLoop k u).ssp = s.ssp := by cases k <;> rfl
@[simp] theorem State.setLoop_usp (s : State) (k : LoopIdx) (u : LoopUnit) : (s.setLoop k u).usp = s.usp := by cases k <;> rfl
@[simp] theorem State.setLoop_fp (s : State) (k : LoopIdx) (u : LoopUnit) : (s.setLoop k u).fp = s.fp := by cases k <;> rfl
@[simp] theorem State.setLoop_rets (s : State) (k : LoopIdx) (u : LoopUnit) : (s.setLoop k u).rets = s.rets := by cases k <;> rfl
@[simp] theorem State.setLoop_reti (s : State) (k : LoopIdx) (u : LoopUnit) : (s.setLoop k u).reti = s.reti := by cases k <;> rfl
@[simp] theorem State.setLoop_retx (s : State) (k : LoopIdx) (u : LoopUnit) : (s.setLoop k u).retx = s.retx := by cases k <;> rfl
@[simp] theorem State.setLoop_retn (s : State) (k : LoopIdx) (u : LoopUnit) : (s.setLoop k u).retn = s.retn := by cases k <;> rfl
@[simp] theorem State.setLoop_rete (s : State) (k : LoopIdx) (u : LoopUnit) : (s.setLoop k u).rete = s.rete := by cases k <;> rfl
@[simp] theorem State.setLoop_seqstat (s : State) (k : LoopIdx) (u : LoopUnit) : (s.setLoop k u).seqstat = s.seqstat := by cases k <;> rfl
@[simp] theorem State.setLoop_syscfg (s : State) (k : LoopIdx) (u : LoopUnit) : (s.setLoop k u).syscfg = s.syscfg := by cases k <;> rfl
@[simp] theorem State.setLoop_cycles (s : State) (k : LoopIdx) (u : LoopUnit) : (s.setLoop k u).cycles = s.cycles := by cases k <;> rfl
@[simp] theorem State.setLoop_cycles2 (s : State) (k : LoopIdx) (u : LoopUnit) : (s.setLoop k u).cycles2 = s.cycles2 := by cases k <;> rfl
@[simp] theorem State.setLoop_astat (s : State) (k : LoopIdx) (u : LoopUnit) : (s.setLoop k u).astat = s.astat := by cases k <;> rfl
@[simp] theorem State.setLoop_imask (s : State) (k : LoopIdx) (u : LoopUnit) : (s.setLoop k u).imask = s.imask := by cases k <;> rfl
@[simp] theorem State.setLoop_ilat (s : State) (k : LoopIdx) (u : LoopUnit) : (s.setLoop k u).ilat = s.ilat := by cases k <;> rfl
@[simp] theorem State.setLoop_ipend (s : State) (k : LoopIdx) (u : LoopUnit) : (s.setLoop k u).ipend = s.ipend := by cases k <;> rfl
@[simp] theorem State.setLoop_evt (s : State) (k : LoopIdx) (u : LoopUnit) : (s.setLoop k u).evt = s.evt := by cases k <;> rfl
@[simp] theorem State.setLoop_sic (s : State) (k : LoopIdx) (u : LoopUnit) : (s.setLoop k u).sic = s.sic := by cases k <;> rfl
@[simp] theorem State.setLoop_idle (s : State) (k : LoopIdx) (u : LoopUnit) : (s.setLoop k u).idle = s.idle := by cases k <;> rfl
@[simp] theorem State.setLoop_doubleFault (s : State) (k : LoopIdx) (u : LoopUnit) : (s.setLoop k u).doubleFault = s.doubleFault := by cases k <;> rfl
@[simp] theorem State.setLoop_mem (s : State) (k : LoopIdx) (u : LoopUnit) : (s.setLoop k u).mem = s.mem := by cases k <;> rfl
@[simp] theorem State.setLoop_memEpoch (s : State) (k : LoopIdx) (u : LoopUnit) : (s.setLoop k u).memEpoch = s.memEpoch := by cases k <;> rfl
@[simp] theorem State.setLoop_plat (s : State) (k : LoopIdx) (u : LoopUnit) : (s.setLoop k u).plat = s.plat := by cases k <;> rfl
@[simp] theorem State.setLoop_env (s : State) (k : LoopIdx) (u : LoopUnit) : (s.setLoop k u).env = s.env := by cases k <;> rfl
@[simp] theorem State.setLoop_draws (s : State) (k : LoopIdx) (u : LoopUnit) : (s.setLoop k u).draws = s.draws := by cases k <;> rfl
@[simp] theorem State.setLoop_mode (s : State) (k : LoopIdx) (u : LoopUnit) : (s.setLoop k u).mode = s.mode := State.mode_congr (by simp)

/-- A loop unit reads as it was written, the other as before. -/
@[simp] theorem State.setLoop_loop (s : State) (j k : LoopIdx) (u : LoopUnit) :
    (s.setLoop k u).loop j = if j = k then u else s.loop j := by
  cases j <;> cases k <;> rfl

@[simp] theorem State.setReg_pc (s : State) (r : Reg) (v : Word) : (s.setReg r v).pc = s.pc := by cases r <;> simp [State.setReg]
@[simp] theorem State.setReg_seqstat (s : State) (r : Reg) (v : Word) : (s.setReg r v).seqstat = s.seqstat := by cases r <;> simp [State.setReg]
@[simp] theorem State.setReg_imask (s : State) (r : Reg) (v : Word) : (s.setReg r v).imask = s.imask := by cases r <;> simp [State.setReg]
@[simp] theorem State.setReg_ilat (s : State) (r : Reg) (v : Word) : (s.setReg r v).ilat = s.ilat := by cases r <;> simp [State.setReg]
@[simp] theorem State.setReg_ipend (s : State) (r : Reg) (v : Word) : (s.setReg r v).ipend = s.ipend := by cases r <;> simp [State.setReg]
@[simp] theorem State.setReg_evt (s : State) (r : Reg) (v : Word) : (s.setReg r v).evt = s.evt := by cases r <;> simp [State.setReg]
@[simp] theorem State.setReg_sic (s : State) (r : Reg) (v : Word) : (s.setReg r v).sic = s.sic := by cases r <;> simp [State.setReg]
@[simp] theorem State.setReg_idle (s : State) (r : Reg) (v : Word) : (s.setReg r v).idle = s.idle := by cases r <;> simp [State.setReg]
@[simp] theorem State.setReg_doubleFault (s : State) (r : Reg) (v : Word) : (s.setReg r v).doubleFault = s.doubleFault := by cases r <;> simp [State.setReg]
@[simp] theorem State.setReg_mem (s : State) (r : Reg) (v : Word) : (s.setReg r v).mem = s.mem := by cases r <;> simp [State.setReg]
@[simp] theorem State.setReg_memEpoch (s : State) (r : Reg) (v : Word) : (s.setReg r v).memEpoch = s.memEpoch := by cases r <;> simp [State.setReg]
@[simp] theorem State.setReg_plat (s : State) (r : Reg) (v : Word) : (s.setReg r v).plat = s.plat := by cases r <;> simp [State.setReg]
@[simp] theorem State.setReg_env (s : State) (r : Reg) (v : Word) : (s.setReg r v).env = s.env := by cases r <;> simp [State.setReg]
@[simp] theorem State.setReg_draws (s : State) (r : Reg) (v : Word) : (s.setReg r v).draws = s.draws := by cases r <;> simp [State.setReg]
@[simp] theorem State.setReg_mode (s : State) (r : Reg) (v : Word) : (s.setReg r v).mode = s.mode := State.mode_congr (by simp)

@[simp] theorem State.afterRead_pc (s : State) (r : Reg) : (s.afterRead r).pc = s.pc := by cases r <;> rfl
@[simp] theorem State.afterRead_d (s : State) (r : Reg) : (s.afterRead r).d = s.d := by cases r <;> rfl
@[simp] theorem State.afterRead_p (s : State) (r : Reg) : (s.afterRead r).p = s.p := by cases r <;> rfl
@[simp] theorem State.afterRead_ssp (s : State) (r : Reg) : (s.afterRead r).ssp = s.ssp := by cases r <;> rfl
@[simp] theorem State.afterRead_usp (s : State) (r : Reg) : (s.afterRead r).usp = s.usp := by cases r <;> rfl
@[simp] theorem State.afterRead_fp (s : State) (r : Reg) : (s.afterRead r).fp = s.fp := by cases r <;> rfl
@[simp] theorem State.afterRead_rets (s : State) (r : Reg) : (s.afterRead r).rets = s.rets := by cases r <;> rfl
@[simp] theorem State.afterRead_reti (s : State) (r : Reg) : (s.afterRead r).reti = s.reti := by cases r <;> rfl
@[simp] theorem State.afterRead_retx (s : State) (r : Reg) : (s.afterRead r).retx = s.retx := by cases r <;> rfl
@[simp] theorem State.afterRead_retn (s : State) (r : Reg) : (s.afterRead r).retn = s.retn := by cases r <;> rfl
@[simp] theorem State.afterRead_rete (s : State) (r : Reg) : (s.afterRead r).rete = s.rete := by cases r <;> rfl
@[simp] theorem State.afterRead_loop0 (s : State) (r : Reg) : (s.afterRead r).loop0 = s.loop0 := by cases r <;> rfl
@[simp] theorem State.afterRead_loop1 (s : State) (r : Reg) : (s.afterRead r).loop1 = s.loop1 := by cases r <;> rfl
@[simp] theorem State.afterRead_seqstat (s : State) (r : Reg) : (s.afterRead r).seqstat = s.seqstat := by cases r <;> rfl
@[simp] theorem State.afterRead_syscfg (s : State) (r : Reg) : (s.afterRead r).syscfg = s.syscfg := by cases r <;> rfl
@[simp] theorem State.afterRead_astat (s : State) (r : Reg) : (s.afterRead r).astat = s.astat := by cases r <;> rfl
@[simp] theorem State.afterRead_imask (s : State) (r : Reg) : (s.afterRead r).imask = s.imask := by cases r <;> rfl
@[simp] theorem State.afterRead_ilat (s : State) (r : Reg) : (s.afterRead r).ilat = s.ilat := by cases r <;> rfl
@[simp] theorem State.afterRead_ipend (s : State) (r : Reg) : (s.afterRead r).ipend = s.ipend := by cases r <;> rfl
@[simp] theorem State.afterRead_evt (s : State) (r : Reg) : (s.afterRead r).evt = s.evt := by cases r <;> rfl
@[simp] theorem State.afterRead_sic (s : State) (r : Reg) : (s.afterRead r).sic = s.sic := by cases r <;> rfl
@[simp] theorem State.afterRead_idle (s : State) (r : Reg) : (s.afterRead r).idle = s.idle := by cases r <;> rfl
@[simp] theorem State.afterRead_doubleFault (s : State) (r : Reg) : (s.afterRead r).doubleFault = s.doubleFault := by cases r <;> rfl
@[simp] theorem State.afterRead_mem (s : State) (r : Reg) : (s.afterRead r).mem = s.mem := by cases r <;> rfl
@[simp] theorem State.afterRead_memEpoch (s : State) (r : Reg) : (s.afterRead r).memEpoch = s.memEpoch := by cases r <;> rfl
@[simp] theorem State.afterRead_plat (s : State) (r : Reg) : (s.afterRead r).plat = s.plat := by cases r <;> rfl
@[simp] theorem State.afterRead_env (s : State) (r : Reg) : (s.afterRead r).env = s.env := by cases r <;> rfl
@[simp] theorem State.afterRead_mode (s : State) (r : Reg) : (s.afterRead r).mode = s.mode := State.mode_congr (by simp)

/-- A register of the R or the P file reads as it was written (40_stack_and_moves.md R170). -/
theorem State.setGreg_greg (s : State) (r : GReg) (v : Word) : (s.setGreg r v).greg r = v := by
  cases r with
  | d r => simp [State.greg, State.setGreg, State.dreg, Vector.get_eq_getElem]
  | p r => cases r <;> simp [State.greg, State.setGreg, State.preg, State.setPreg, Vector.get_eq_getElem]

end Sys2Proof.Machine
end

