-- ==== Sys2Proof/Laws/Memory.lean ====
section
/-! SUPPORT. Laws of memory: read after write, the canonical form, and a word of data memory. -/

namespace Sys2Proof.Machine

/-! ## Reads after writes -/

/-- The byte written is read. -/
theorem Memory.read_write_same (m : Memory) (a : Nat) (v : Byte) : (m.write a v).read a = some v := by
  induction m with
  | nil => simp [Memory.write, Memory.read]
  | cons c m ih =>
    obtain ⟨b, w⟩ := c
    unfold Memory.write
    split
    · simp [Memory.read]
    · split
      · simp [Memory.read]
      · simp [Memory.read, *]

/-- Every other byte reads as before. -/
theorem Memory.read_write_other (m : Memory) {a b : Nat} (v : Byte) (h : b ≠ a) : (m.write a v).read b = m.read b := by
  induction m with
  | nil => simp [Memory.write, Memory.read, h]
  | cons c m ih =>
    obtain ⟨k, w⟩ := c
    unfold Memory.write
    split
    · simp [Memory.read, h]
    · split
      · subst_vars
        simp [Memory.read, h]
      · simp [Memory.read, ih]

/-- Bytes outside those written read as before. -/
theorem Memory.read_writeBytes_outside (m : Memory) (a : Nat) (vs : List Byte) {b : Nat}
    (h : ¬ (a ≤ b ∧ b < a + vs.length)) : (m.writeBytes a vs).read b = m.read b := by
  induction vs generalizing m a with
  | nil => rfl
  | cons v vs ih =>
    rw [Memory.writeBytes, ih, Memory.read_write_other]
    · rintro rfl
      exact h ⟨Nat.le_refl _, by simp⟩
    · rintro ⟨h1, h2⟩
      exact h ⟨by omega, by simp only [List.length_cons]; omega⟩

/-! ## The canonical form -/

/-- A nonempty memory is canonical if its tail is and its first address is smaller than the next. -/
theorem Memory.wf_cons (a : Nat) (v : Byte) (m : Memory) :
    Memory.wf ((a, v) :: m) = true ↔ a < 0x100000000 ∧ Memory.wf m = true ∧ ∀ c ∈ m.head?, a < c.1 := by
  cases m with
  | nil => simp [Memory.wf]
  | cons c m =>
    obtain ⟨b, w⟩ := c
    constructor
    · intro h
      simp only [Memory.wf, Bool.and_eq_true, decide_eq_true_eq] at h
      refine ⟨?_, h.2, by simpa using h.1⟩
      have : b < 0x100000000 := by
        cases m with
        | nil => simpa [Memory.wf] using h.2
        | cons c m =>
          obtain ⟨h1, h2⟩ := h
          clear h1
          induction m generalizing b w c with
          | nil => simp only [Memory.wf, Bool.and_eq_true, decide_eq_true_eq] at h2; omega
          | cons e m ih =>
            simp only [Memory.wf, Bool.and_eq_true, decide_eq_true_eq] at h2
            have := ih c.1 c.2 e (by simpa [Memory.wf] using h2.2)
            omega
      omega
    · rintro ⟨_, h2, h3⟩
      simp only [Memory.wf, Bool.and_eq_true, decide_eq_true_eq]
      exact ⟨by simpa using h3, h2⟩

/-- A write keeps the canonical form. -/
theorem Memory.wf_write (m : Memory) (a : Nat) (v : Byte) (h : m.wf = true) (ha : a < 0x100000000) :
    (m.write a v).wf = true := by
  induction m with
  | nil => simpa [Memory.write, Memory.wf] using ha
  | cons c m ih =>
    obtain ⟨b, w⟩ := c
    obtain ⟨h1, h2, h3⟩ := (Memory.wf_cons b w m).1 h
    unfold Memory.write
    split
    · exact (Memory.wf_cons ..).2 ⟨ha, h, by simpa⟩
    · split
      · subst_vars
        exact (Memory.wf_cons ..).2 ⟨ha, h2, h3⟩
      · refine (Memory.wf_cons ..).2 ⟨h1, ih h2, ?_⟩
        intro c hc
        cases m with
        | nil => simp only [Memory.write, List.head?_cons, Option.mem_some_iff] at hc; subst hc; simp only; omega
        | cons e m =>
          obtain ⟨k, u⟩ := e
          have hk : b < k := by simpa using h3
          unfold Memory.write at hc
          split at hc
          · simp only [List.head?_cons, Option.mem_some_iff] at hc; subst hc; simp only; omega
          · split at hc
            · simp only [List.head?_cons, Option.mem_some_iff] at hc; subst hc; simp only; omega
            · simp only [List.head?_cons, Option.mem_some_iff] at hc; subst hc; simpa using hk

/-- A write of bytes below 2^32 keeps the canonical form. -/
theorem Memory.wf_writeBytes (m : Memory) (a : Nat) (vs : List Byte) (h : m.wf = true)
    (ha : a + vs.length ≤ 0x100000000) : (m.writeBytes a vs).wf = true := by
  induction vs generalizing m a with
  | nil => exact h
  | cons v vs ih =>
    simp only [List.length_cons] at ha
    exact ih _ _ (Memory.wf_write m a v h (by omega)) (by omega)

/-- Memory at reset is canonical. -/
theorem Memory.wf_reset : State.reset.mem.wf = true := rfl

/-! ## Words of data memory -/

/-- The four bytes of a word make the word (20_memory.md R84). -/
theorem wordOfBytes_byteOfWord (v : Word) :
    wordOfBytes (byteOfWord v 0) (byteOfWord v 1) (byteOfWord v 2) (byteOfWord v 3) = v := by
  simp only [wordOfBytes, byteOfWord]
  ext i hi
  simp only [BitVec.getElem_append, BitVec.getElem_extractLsb']
  split
  · simp [BitVec.getLsbD_eq_getElem hi]
  · split
    · rw [BitVec.getLsbD_eq_getElem (by omega)]; congr 1; omega
    · split
      · rw [BitVec.getLsbD_eq_getElem (by omega)]; congr 1; omega
      · rw [BitVec.getLsbD_eq_getElem (by omega)]; congr 1; omega

/-- A byte of a word just written, at its place. -/
theorem State.setDataWord_byte (s : State) (a : Nat) (v : Word) (i : Nat) (h : i < 4) :
    (s.setDataWord a v).dataByte (a + i) = byteOfWord v i := by
  have hi : i = 0 ∨ i = 1 ∨ i = 2 ∨ i = 3 := by omega
  unfold State.dataByte State.setDataWord
  simp only [State.setMem_mem, State.setMem_memEpoch, wordBytes, Memory.writeBytes]
  rcases hi with rfl | rfl | rfl | rfl
  · rw [Memory.read_write_other _ _ (by omega), Memory.read_write_other _ _ (by omega),
      Memory.read_write_other _ _ (by omega)]
    simp [Memory.read_write_same]
  · rw [Memory.read_write_other _ _ (by omega), Memory.read_write_other _ _ (by omega)]
    simp [Memory.read_write_same]
  · rw [Memory.read_write_other _ _ (by omega)]
    simp [Memory.read_write_same]
  · simp [Memory.read_write_same]

/-- A word just written is read back (20_memory.md R84, R100). -/
theorem State.setDataWord_dataWord (s : State) (a : Nat) (v : Word) : (s.setDataWord a v).dataWord a = v := by
  have h0 := s.setDataWord_byte a v 0 (by omega)
  rw [Nat.add_zero] at h0
  unfold State.dataWord
  rw [h0, s.setDataWord_byte a v 1 (by omega), s.setDataWord_byte a v 2 (by omega), s.setDataWord_byte a v 3 (by omega),
    wordOfBytes_byteOfWord]

/-- A byte outside a word just written is as before. -/
theorem State.setDataWord_outside (s : State) (a : Nat) (v : Word) {b : Nat} (h : ¬ (a ≤ b ∧ b < a + 4)) :
    (s.setDataWord a v).dataByte b = s.dataByte b := by
  unfold State.dataByte State.setDataWord
  rw [State.setMem_mem, State.setMem_memEpoch, Memory.read_writeBytes_outside _ _ _ (by simpa [wordBytes] using h)]

end Sys2Proof.Machine
end

