-- ==== Sys2Proof/Laws/Ops.lean ====
section
/-! SUPPORT. What the shared operations of Ops.lean do: one lemma per field for the ones that write few fields, and one
inversion for those that can stop. -/

namespace Sys2Proof.Machine

/-! ## Field by field -/

@[simp] theorem State.setExcause_pc (s : State) (c : BitVec 6) : (s.setExcause c).pc = s.pc := rfl
@[simp] theorem State.setExcause_d (s : State) (c : BitVec 6) : (s.setExcause c).d = s.d := rfl
@[simp] theorem State.setExcause_p (s : State) (c : BitVec 6) : (s.setExcause c).p = s.p := rfl
@[simp] theorem State.setExcause_ssp (s : State) (c : BitVec 6) : (s.setExcause c).ssp = s.ssp := rfl
@[simp] theorem State.setExcause_usp (s : State) (c : BitVec 6) : (s.setExcause c).usp = s.usp := rfl
@[simp] theorem State.setExcause_fp (s : State) (c : BitVec 6) : (s.setExcause c).fp = s.fp := rfl
@[simp] theorem State.setExcause_rets (s : State) (c : BitVec 6) : (s.setExcause c).rets = s.rets := rfl
@[simp] theorem State.setExcause_reti (s : State) (c : BitVec 6) : (s.setExcause c).reti = s.reti := rfl
@[simp] theorem State.setExcause_retx (s : State) (c : BitVec 6) : (s.setExcause c).retx = s.retx := rfl
@[simp] theorem State.setExcause_retn (s : State) (c : BitVec 6) : (s.setExcause c).retn = s.retn := rfl
@[simp] theorem State.setExcause_rete (s : State) (c : BitVec 6) : (s.setExcause c).rete = s.rete := rfl
@[simp] theorem State.setExcause_loop0 (s : State) (c : BitVec 6) : (s.setExcause c).loop0 = s.loop0 := rfl
@[simp] theorem State.setExcause_loop1 (s : State) (c : BitVec 6) : (s.setExcause c).loop1 = s.loop1 := rfl
@[simp] theorem State.setExcause_syscfg (s : State) (c : BitVec 6) : (s.setExcause c).syscfg = s.syscfg := rfl
@[simp] theorem State.setExcause_cycles (s : State) (c : BitVec 6) : (s.setExcause c).cycles = s.cycles := rfl
@[simp] theorem State.setExcause_cycles2 (s : State) (c : BitVec 6) : (s.setExcause c).cycles2 = s.cycles2 := rfl
@[simp] theorem State.setExcause_astat (s : State) (c : BitVec 6) : (s.setExcause c).astat = s.astat := rfl
@[simp] theorem State.setExcause_imask (s : State) (c : BitVec 6) : (s.setExcause c).imask = s.imask := rfl
@[simp] theorem State.setExcause_ilat (s : State) (c : BitVec 6) : (s.setExcause c).ilat = s.ilat := rfl
@[simp] theorem State.setExcause_ipend (s : State) (c : BitVec 6) : (s.setExcause c).ipend = s.ipend := rfl
@[simp] theorem State.setExcause_evt (s : State) (c : BitVec 6) : (s.setExcause c).evt = s.evt := rfl
@[simp] theorem State.setExcause_sic (s : State) (c : BitVec 6) : (s.setExcause c).sic = s.sic := rfl
@[simp] theorem State.setExcause_idle (s : State) (c : BitVec 6) : (s.setExcause c).idle = s.idle := rfl
@[simp] theorem State.setExcause_doubleFault (s : State) (c : BitVec 6) : (s.setExcause c).doubleFault = s.doubleFault := rfl
@[simp] theorem State.setExcause_mem (s : State) (c : BitVec 6) : (s.setExcause c).mem = s.mem := rfl
@[simp] theorem State.setExcause_memEpoch (s : State) (c : BitVec 6) : (s.setExcause c).memEpoch = s.memEpoch := rfl
@[simp] theorem State.setExcause_plat (s : State) (c : BitVec 6) : (s.setExcause c).plat = s.plat := rfl
@[simp] theorem State.setExcause_env (s : State) (c : BitVec 6) : (s.setExcause c).env = s.env := rfl
@[simp] theorem State.setExcause_draws (s : State) (c : BitVec 6) : (s.setExcause c).draws = s.draws := rfl
@[simp] theorem State.setExcause_mode (s : State) (c : BitVec 6) : (s.setExcause c).mode = s.mode := State.mode_congr (by simp)

@[simp] theorem State.setHwErrCause_pc (s : State) (c : BitVec 5) : (s.setHwErrCause c).pc = s.pc := rfl
@[simp] theorem State.setHwErrCause_d (s : State) (c : BitVec 5) : (s.setHwErrCause c).d = s.d := rfl
@[simp] theorem State.setHwErrCause_p (s : State) (c : BitVec 5) : (s.setHwErrCause c).p = s.p := rfl
@[simp] theorem State.setHwErrCause_ssp (s : State) (c : BitVec 5) : (s.setHwErrCause c).ssp = s.ssp := rfl
@[simp] theorem State.setHwErrCause_usp (s : State) (c : BitVec 5) : (s.setHwErrCause c).usp = s.usp := rfl
@[simp] theorem State.setHwErrCause_fp (s : State) (c : BitVec 5) : (s.setHwErrCause c).fp = s.fp := rfl
@[simp] theorem State.setHwErrCause_rets (s : State) (c : BitVec 5) : (s.setHwErrCause c).rets = s.rets := rfl
@[simp] theorem State.setHwErrCause_reti (s : State) (c : BitVec 5) : (s.setHwErrCause c).reti = s.reti := rfl
@[simp] theorem State.setHwErrCause_retx (s : State) (c : BitVec 5) : (s.setHwErrCause c).retx = s.retx := rfl
@[simp] theorem State.setHwErrCause_retn (s : State) (c : BitVec 5) : (s.setHwErrCause c).retn = s.retn := rfl
@[simp] theorem State.setHwErrCause_rete (s : State) (c : BitVec 5) : (s.setHwErrCause c).rete = s.rete := rfl
@[simp] theorem State.setHwErrCause_loop0 (s : State) (c : BitVec 5) : (s.setHwErrCause c).loop0 = s.loop0 := rfl
@[simp] theorem State.setHwErrCause_loop1 (s : State) (c : BitVec 5) : (s.setHwErrCause c).loop1 = s.loop1 := rfl
@[simp] theorem State.setHwErrCause_syscfg (s : State) (c : BitVec 5) : (s.setHwErrCause c).syscfg = s.syscfg := rfl
@[simp] theorem State.setHwErrCause_cycles (s : State) (c : BitVec 5) : (s.setHwErrCause c).cycles = s.cycles := rfl
@[simp] theorem State.setHwErrCause_cycles2 (s : State) (c : BitVec 5) : (s.setHwErrCause c).cycles2 = s.cycles2 := rfl
@[simp] theorem State.setHwErrCause_astat (s : State) (c : BitVec 5) : (s.setHwErrCause c).astat = s.astat := rfl
@[simp] theorem State.setHwErrCause_imask (s : State) (c : BitVec 5) : (s.setHwErrCause c).imask = s.imask := rfl
@[simp] theorem State.setHwErrCause_ilat (s : State) (c : BitVec 5) : (s.setHwErrCause c).ilat = s.ilat := rfl
@[simp] theorem State.setHwErrCause_ipend (s : State) (c : BitVec 5) : (s.setHwErrCause c).ipend = s.ipend := rfl
@[simp] theorem State.setHwErrCause_evt (s : State) (c : BitVec 5) : (s.setHwErrCause c).evt = s.evt := rfl
@[simp] theorem State.setHwErrCause_sic (s : State) (c : BitVec 5) : (s.setHwErrCause c).sic = s.sic := rfl
@[simp] theorem State.setHwErrCause_idle (s : State) (c : BitVec 5) : (s.setHwErrCause c).idle = s.idle := rfl
@[simp] theorem State.setHwErrCause_doubleFault (s : State) (c : BitVec 5) : (s.setHwErrCause c).doubleFault = s.doubleFault := rfl
@[simp] theorem State.setHwErrCause_mem (s : State) (c : BitVec 5) : (s.setHwErrCause c).mem = s.mem := rfl
@[simp] theorem State.setHwErrCause_memEpoch (s : State) (c : BitVec 5) : (s.setHwErrCause c).memEpoch = s.memEpoch := rfl
@[simp] theorem State.setHwErrCause_plat (s : State) (c : BitVec 5) : (s.setHwErrCause c).plat = s.plat := rfl
@[simp] theorem State.setHwErrCause_env (s : State) (c : BitVec 5) : (s.setHwErrCause c).env = s.env := rfl
@[simp] theorem State.setHwErrCause_draws (s : State) (c : BitVec 5) : (s.setHwErrCause c).draws = s.draws := rfl
@[simp] theorem State.setHwErrCause_mode (s : State) (c : BitVec 5) : (s.setHwErrCause c).mode = s.mode := State.mode_congr (by simp)

@[simp] theorem State.latchEvent_pc (s : State) (n : Nat) : (s.latchEvent n).pc = s.pc := rfl
@[simp] theorem State.latchEvent_d (s : State) (n : Nat) : (s.latchEvent n).d = s.d := rfl
@[simp] theorem State.latchEvent_p (s : State) (n : Nat) : (s.latchEvent n).p = s.p := rfl
@[simp] theorem State.latchEvent_ssp (s : State) (n : Nat) : (s.latchEvent n).ssp = s.ssp := rfl
@[simp] theorem State.latchEvent_usp (s : State) (n : Nat) : (s.latchEvent n).usp = s.usp := rfl
@[simp] theorem State.latchEvent_fp (s : State) (n : Nat) : (s.latchEvent n).fp = s.fp := rfl
@[simp] theorem State.latchEvent_rets (s : State) (n : Nat) : (s.latchEvent n).rets = s.rets := rfl
@[simp] theorem State.latchEvent_reti (s : State) (n : Nat) : (s.latchEvent n).reti = s.reti := rfl
@[simp] theorem State.latchEvent_retx (s : State) (n : Nat) : (s.latchEvent n).retx = s.retx := rfl
@[simp] theorem State.latchEvent_retn (s : State) (n : Nat) : (s.latchEvent n).retn = s.retn := rfl
@[simp] theorem State.latchEvent_rete (s : State) (n : Nat) : (s.latchEvent n).rete = s.rete := rfl
@[simp] theorem State.latchEvent_loop0 (s : State) (n : Nat) : (s.latchEvent n).loop0 = s.loop0 := rfl
@[simp] theorem State.latchEvent_loop1 (s : State) (n : Nat) : (s.latchEvent n).loop1 = s.loop1 := rfl
@[simp] theorem State.latchEvent_seqstat (s : State) (n : Nat) : (s.latchEvent n).seqstat = s.seqstat := rfl
@[simp] theorem State.latchEvent_syscfg (s : State) (n : Nat) : (s.latchEvent n).syscfg = s.syscfg := rfl
@[simp] theorem State.latchEvent_cycles (s : State) (n : Nat) : (s.latchEvent n).cycles = s.cycles := rfl
@[simp] theorem State.latchEvent_cycles2 (s : State) (n : Nat) : (s.latchEvent n).cycles2 = s.cycles2 := rfl
@[simp] theorem State.latchEvent_astat (s : State) (n : Nat) : (s.latchEvent n).astat = s.astat := rfl
@[simp] theorem State.latchEvent_imask (s : State) (n : Nat) : (s.latchEvent n).imask = s.imask := rfl
@[simp] theorem State.latchEvent_ipend (s : State) (n : Nat) : (s.latchEvent n).ipend = s.ipend := rfl
@[simp] theorem State.latchEvent_evt (s : State) (n : Nat) : (s.latchEvent n).evt = s.evt := rfl
@[simp] theorem State.latchEvent_sic (s : State) (n : Nat) : (s.latchEvent n).sic = s.sic := rfl
@[simp] theorem State.latchEvent_idle (s : State) (n : Nat) : (s.latchEvent n).idle = s.idle := rfl
@[simp] theorem State.latchEvent_doubleFault (s : State) (n : Nat) : (s.latchEvent n).doubleFault = s.doubleFault := rfl
@[simp] theorem State.latchEvent_mem (s : State) (n : Nat) : (s.latchEvent n).mem = s.mem := rfl
@[simp] theorem State.latchEvent_memEpoch (s : State) (n : Nat) : (s.latchEvent n).memEpoch = s.memEpoch := rfl
@[simp] theorem State.latchEvent_plat (s : State) (n : Nat) : (s.latchEvent n).plat = s.plat := rfl
@[simp] theorem State.latchEvent_env (s : State) (n : Nat) : (s.latchEvent n).env = s.env := rfl
@[simp] theorem State.latchEvent_draws (s : State) (n : Nat) : (s.latchEvent n).draws = s.draws := rfl
@[simp] theorem State.latchEvent_mode (s : State) (n : Nat) : (s.latchEvent n).mode = s.mode := State.mode_congr (by simp)

@[simp] theorem State.writeImask_pc (s : State) (v : Word) : (s.writeImask v).pc = s.pc := rfl
@[simp] theorem State.writeImask_d (s : State) (v : Word) : (s.writeImask v).d = s.d := rfl
@[simp] theorem State.writeImask_p (s : State) (v : Word) : (s.writeImask v).p = s.p := rfl
@[simp] theorem State.writeImask_ssp (s : State) (v : Word) : (s.writeImask v).ssp = s.ssp := rfl
@[simp] theorem State.writeImask_usp (s : State) (v : Word) : (s.writeImask v).usp = s.usp := rfl
@[simp] theorem State.writeImask_fp (s : State) (v : Word) : (s.writeImask v).fp = s.fp := rfl
@[simp] theorem State.writeImask_rets (s : State) (v : Word) : (s.writeImask v).rets = s.rets := rfl
@[simp] theorem State.writeImask_reti (s : State) (v : Word) : (s.writeImask v).reti = s.reti := rfl
@[simp] theorem State.writeImask_retx (s : State) (v : Word) : (s.writeImask v).retx = s.retx := rfl
@[simp] theorem State.writeImask_retn (s : State) (v : Word) : (s.writeImask v).retn = s.retn := rfl
@[simp] theorem State.writeImask_rete (s : State) (v : Word) : (s.writeImask v).rete = s.rete := rfl
@[simp] theorem State.writeImask_loop0 (s : State) (v : Word) : (s.writeImask v).loop0 = s.loop0 := rfl
@[simp] theorem State.writeImask_loop1 (s : State) (v : Word) : (s.writeImask v).loop1 = s.loop1 := rfl
@[simp] theorem State.writeImask_seqstat (s : State) (v : Word) : (s.writeImask v).seqstat = s.seqstat := rfl
@[simp] theorem State.writeImask_syscfg (s : State) (v : Word) : (s.writeImask v).syscfg = s.syscfg := rfl
@[simp] theorem State.writeImask_cycles (s : State) (v : Word) : (s.writeImask v).cycles = s.cycles := rfl
@[simp] theorem State.writeImask_cycles2 (s : State) (v : Word) : (s.writeImask v).cycles2 = s.cycles2 := rfl
@[simp] theorem State.writeImask_astat (s : State) (v : Word) : (s.writeImask v).astat = s.astat := rfl
@[simp] theorem State.writeImask_ilat (s : State) (v : Word) : (s.writeImask v).ilat = s.ilat := rfl
@[simp] theorem State.writeImask_ipend (s : State) (v : Word) : (s.writeImask v).ipend = s.ipend := rfl
@[simp] theorem State.writeImask_evt (s : State) (v : Word) : (s.writeImask v).evt = s.evt := rfl
@[simp] theorem State.writeImask_sic (s : State) (v : Word) : (s.writeImask v).sic = s.sic := rfl
@[simp] theorem State.writeImask_idle (s : State) (v : Word) : (s.writeImask v).idle = s.idle := rfl
@[simp] theorem State.writeImask_doubleFault (s : State) (v : Word) : (s.writeImask v).doubleFault = s.doubleFault := rfl
@[simp] theorem State.writeImask_mem (s : State) (v : Word) : (s.writeImask v).mem = s.mem := rfl
@[simp] theorem State.writeImask_memEpoch (s : State) (v : Word) : (s.writeImask v).memEpoch = s.memEpoch := rfl
@[simp] theorem State.writeImask_plat (s : State) (v : Word) : (s.writeImask v).plat = s.plat := rfl
@[simp] theorem State.writeImask_env (s : State) (v : Word) : (s.writeImask v).env = s.env := rfl
@[simp] theorem State.writeImask_draws (s : State) (v : Word) : (s.writeImask v).draws = s.draws := rfl
@[simp] theorem State.writeImask_mode (s : State) (v : Word) : (s.writeImask v).mode = s.mode := State.mode_congr (by simp)

@[simp] theorem State.saveReturn_pc (s : State) (n : Fin 16) (v : Word) : (s.saveReturn n v).pc = s.pc := by unfold State.saveReturn; split <;> [rfl; (split <;> [rfl; (split <;> rfl)])]
@[simp] theorem State.saveReturn_d (s : State) (n : Fin 16) (v : Word) : (s.saveReturn n v).d = s.d := by unfold State.saveReturn; split <;> [rfl; (split <;> [rfl; (split <;> rfl)])]
@[simp] theorem State.saveReturn_p (s : State) (n : Fin 16) (v : Word) : (s.saveReturn n v).p = s.p := by unfold State.saveReturn; split <;> [rfl; (split <;> [rfl; (split <;> rfl)])]
@[simp] theorem State.saveReturn_ssp (s : State) (n : Fin 16) (v : Word) : (s.saveReturn n v).ssp = s.ssp := by unfold State.saveReturn; split <;> [rfl; (split <;> [rfl; (split <;> rfl)])]
@[simp] theorem State.saveReturn_usp (s : State) (n : Fin 16) (v : Word) : (s.saveReturn n v).usp = s.usp := by unfold State.saveReturn; split <;> [rfl; (split <;> [rfl; (split <;> rfl)])]
@[simp] theorem State.saveReturn_fp (s : State) (n : Fin 16) (v : Word) : (s.saveReturn n v).fp = s.fp := by unfold State.saveReturn; split <;> [rfl; (split <;> [rfl; (split <;> rfl)])]
@[simp] theorem State.saveReturn_rets (s : State) (n : Fin 16) (v : Word) : (s.saveReturn n v).rets = s.rets := by unfold State.saveReturn; split <;> [rfl; (split <;> [rfl; (split <;> rfl)])]
@[simp] theorem State.saveReturn_rete (s : State) (n : Fin 16) (v : Word) : (s.saveReturn n v).rete = s.rete := by unfold State.saveReturn; split <;> [rfl; (split <;> [rfl; (split <;> rfl)])]
@[simp] theorem State.saveReturn_loop0 (s : State) (n : Fin 16) (v : Word) : (s.saveReturn n v).loop0 = s.loop0 := by unfold State.saveReturn; split <;> [rfl; (split <;> [rfl; (split <;> rfl)])]
@[simp] theorem State.saveReturn_loop1 (s : State) (n : Fin 16) (v : Word) : (s.saveReturn n v).loop1 = s.loop1 := by unfold State.saveReturn; split <;> [rfl; (split <;> [rfl; (split <;> rfl)])]
@[simp] theorem State.saveReturn_seqstat (s : State) (n : Fin 16) (v : Word) : (s.saveReturn n v).seqstat = s.seqstat := by unfold State.saveReturn; split <;> [rfl; (split <;> [rfl; (split <;> rfl)])]
@[simp] theorem State.saveReturn_syscfg (s : State) (n : Fin 16) (v : Word) : (s.saveReturn n v).syscfg = s.syscfg := by unfold State.saveReturn; split <;> [rfl; (split <;> [rfl; (split <;> rfl)])]
@[simp] theorem State.saveReturn_cycles (s : State) (n : Fin 16) (v : Word) : (s.saveReturn n v).cycles = s.cycles := by unfold State.saveReturn; split <;> [rfl; (split <;> [rfl; (split <;> rfl)])]
@[simp] theorem State.saveReturn_cycles2 (s : State) (n : Fin 16) (v : Word) : (s.saveReturn n v).cycles2 = s.cycles2 := by unfold State.saveReturn; split <;> [rfl; (split <;> [rfl; (split <;> rfl)])]
@[simp] theorem State.saveReturn_astat (s : State) (n : Fin 16) (v : Word) : (s.saveReturn n v).astat = s.astat := by unfold State.saveReturn; split <;> [rfl; (split <;> [rfl; (split <;> rfl)])]
@[simp] theorem State.saveReturn_imask (s : State) (n : Fin 16) (v : Word) : (s.saveReturn n v).imask = s.imask := by unfold State.saveReturn; split <;> [rfl; (split <;> [rfl; (split <;> rfl)])]
@[simp] theorem State.saveReturn_ilat (s : State) (n : Fin 16) (v : Word) : (s.saveReturn n v).ilat = s.ilat := by unfold State.saveReturn; split <;> [rfl; (split <;> [rfl; (split <;> rfl)])]
@[simp] theorem State.saveReturn_ipend (s : State) (n : Fin 16) (v : Word) : (s.saveReturn n v).ipend = s.ipend := by unfold State.saveReturn; split <;> [rfl; (split <;> [rfl; (split <;> rfl)])]
@[simp] theorem State.saveReturn_evt (s : State) (n : Fin 16) (v : Word) : (s.saveReturn n v).evt = s.evt := by unfold State.saveReturn; split <;> [rfl; (split <;> [rfl; (split <;> rfl)])]
@[simp] theorem State.saveReturn_sic (s : State) (n : Fin 16) (v : Word) : (s.saveReturn n v).sic = s.sic := by unfold State.saveReturn; split <;> [rfl; (split <;> [rfl; (split <;> rfl)])]
@[simp] theorem State.saveReturn_idle (s : State) (n : Fin 16) (v : Word) : (s.saveReturn n v).idle = s.idle := by unfold State.saveReturn; split <;> [rfl; (split <;> [rfl; (split <;> rfl)])]
@[simp] theorem State.saveReturn_doubleFault (s : State) (n : Fin 16) (v : Word) : (s.saveReturn n v).doubleFault = s.doubleFault := by unfold State.saveReturn; split <;> [rfl; (split <;> [rfl; (split <;> rfl)])]
@[simp] theorem State.saveReturn_mem (s : State) (n : Fin 16) (v : Word) : (s.saveReturn n v).mem = s.mem := by unfold State.saveReturn; split <;> [rfl; (split <;> [rfl; (split <;> rfl)])]
@[simp] theorem State.saveReturn_memEpoch (s : State) (n : Fin 16) (v : Word) : (s.saveReturn n v).memEpoch = s.memEpoch := by unfold State.saveReturn; split <;> [rfl; (split <;> [rfl; (split <;> rfl)])]
@[simp] theorem State.saveReturn_plat (s : State) (n : Fin 16) (v : Word) : (s.saveReturn n v).plat = s.plat := by unfold State.saveReturn; split <;> [rfl; (split <;> [rfl; (split <;> rfl)])]
@[simp] theorem State.saveReturn_env (s : State) (n : Fin 16) (v : Word) : (s.saveReturn n v).env = s.env := by unfold State.saveReturn; split <;> [rfl; (split <;> [rfl; (split <;> rfl)])]
@[simp] theorem State.saveReturn_draws (s : State) (n : Fin 16) (v : Word) : (s.saveReturn n v).draws = s.draws := by unfold State.saveReturn; split <;> [rfl; (split <;> [rfl; (split <;> rfl)])]
@[simp] theorem State.saveReturn_mode (s : State) (n : Fin 16) (v : Word) : (s.saveReturn n v).mode = s.mode := State.mode_congr (by simp)

@[simp] theorem takeEvent_d (n : Fin 16) (ret : Word) (s : State) : (takeEvent n ret s).d = s.d := by simp [takeEvent]
@[simp] theorem takeEvent_p (n : Fin 16) (ret : Word) (s : State) : (takeEvent n ret s).p = s.p := by simp [takeEvent]
@[simp] theorem takeEvent_ssp (n : Fin 16) (ret : Word) (s : State) : (takeEvent n ret s).ssp = s.ssp := by simp [takeEvent]
@[simp] theorem takeEvent_usp (n : Fin 16) (ret : Word) (s : State) : (takeEvent n ret s).usp = s.usp := by simp [takeEvent]
@[simp] theorem takeEvent_fp (n : Fin 16) (ret : Word) (s : State) : (takeEvent n ret s).fp = s.fp := by simp [takeEvent]
@[simp] theorem takeEvent_rets (n : Fin 16) (ret : Word) (s : State) : (takeEvent n ret s).rets = s.rets := by simp [takeEvent]
@[simp] theorem takeEvent_rete (n : Fin 16) (ret : Word) (s : State) : (takeEvent n ret s).rete = s.rete := by simp [takeEvent]
@[simp] theorem takeEvent_loop0 (n : Fin 16) (ret : Word) (s : State) : (takeEvent n ret s).loop0 = s.loop0 := by simp [takeEvent]
@[simp] theorem takeEvent_loop1 (n : Fin 16) (ret : Word) (s : State) : (takeEvent n ret s).loop1 = s.loop1 := by simp [takeEvent]
@[simp] theorem takeEvent_seqstat (n : Fin 16) (ret : Word) (s : State) : (takeEvent n ret s).seqstat = s.seqstat := by simp [takeEvent]
@[simp] theorem takeEvent_syscfg (n : Fin 16) (ret : Word) (s : State) : (takeEvent n ret s).syscfg = s.syscfg := by simp [takeEvent]
@[simp] theorem takeEvent_cycles (n : Fin 16) (ret : Word) (s : State) : (takeEvent n ret s).cycles = s.cycles := by simp [takeEvent]
@[simp] theorem takeEvent_cycles2 (n : Fin 16) (ret : Word) (s : State) : (takeEvent n ret s).cycles2 = s.cycles2 := by simp [takeEvent]
@[simp] theorem takeEvent_astat (n : Fin 16) (ret : Word) (s : State) : (takeEvent n ret s).astat = s.astat := by simp [takeEvent]
@[simp] theorem takeEvent_imask (n : Fin 16) (ret : Word) (s : State) : (takeEvent n ret s).imask = s.imask := by simp [takeEvent]
@[simp] theorem takeEvent_evt (n : Fin 16) (ret : Word) (s : State) : (takeEvent n ret s).evt = s.evt := by simp [takeEvent]
@[simp] theorem takeEvent_doubleFault (n : Fin 16) (ret : Word) (s : State) : (takeEvent n ret s).doubleFault = s.doubleFault := by simp [takeEvent]
@[simp] theorem takeEvent_mem (n : Fin 16) (ret : Word) (s : State) : (takeEvent n ret s).mem = s.mem := by simp [takeEvent]
@[simp] theorem takeEvent_memEpoch (n : Fin 16) (ret : Word) (s : State) : (takeEvent n ret s).memEpoch = s.memEpoch := by simp [takeEvent]
@[simp] theorem takeEvent_plat (n : Fin 16) (ret : Word) (s : State) : (takeEvent n ret s).plat = s.plat := by simp [takeEvent]
@[simp] theorem takeEvent_env (n : Fin 16) (ret : Word) (s : State) : (takeEvent n ret s).env = s.env := by simp [takeEvent]
@[simp] theorem takeEvent_draws (n : Fin 16) (ret : Word) (s : State) : (takeEvent n ret s).draws = s.draws := by simp [takeEvent]

@[simp] theorem takeDoubleFault_pc (s : State) : (takeDoubleFault s).pc = s.pc := rfl
@[simp] theorem takeDoubleFault_d (s : State) : (takeDoubleFault s).d = s.d := rfl
@[simp] theorem takeDoubleFault_p (s : State) : (takeDoubleFault s).p = s.p := rfl
@[simp] theorem takeDoubleFault_ssp (s : State) : (takeDoubleFault s).ssp = s.ssp := rfl
@[simp] theorem takeDoubleFault_usp (s : State) : (takeDoubleFault s).usp = s.usp := rfl
@[simp] theorem takeDoubleFault_fp (s : State) : (takeDoubleFault s).fp = s.fp := rfl
@[simp] theorem takeDoubleFault_rets (s : State) : (takeDoubleFault s).rets = s.rets := rfl
@[simp] theorem takeDoubleFault_reti (s : State) : (takeDoubleFault s).reti = s.reti := rfl
@[simp] theorem takeDoubleFault_retn (s : State) : (takeDoubleFault s).retn = s.retn := rfl
@[simp] theorem takeDoubleFault_rete (s : State) : (takeDoubleFault s).rete = s.rete := rfl
@[simp] theorem takeDoubleFault_loop0 (s : State) : (takeDoubleFault s).loop0 = s.loop0 := rfl
@[simp] theorem takeDoubleFault_loop1 (s : State) : (takeDoubleFault s).loop1 = s.loop1 := rfl
@[simp] theorem takeDoubleFault_syscfg (s : State) : (takeDoubleFault s).syscfg = s.syscfg := rfl
@[simp] theorem takeDoubleFault_cycles (s : State) : (takeDoubleFault s).cycles = s.cycles := rfl
@[simp] theorem takeDoubleFault_cycles2 (s : State) : (takeDoubleFault s).cycles2 = s.cycles2 := rfl
@[simp] theorem takeDoubleFault_astat (s : State) : (takeDoubleFault s).astat = s.astat := rfl
@[simp] theorem takeDoubleFault_imask (s : State) : (takeDoubleFault s).imask = s.imask := rfl
@[simp] theorem takeDoubleFault_ilat (s : State) : (takeDoubleFault s).ilat = s.ilat := rfl
@[simp] theorem takeDoubleFault_ipend (s : State) : (takeDoubleFault s).ipend = s.ipend := rfl
@[simp] theorem takeDoubleFault_evt (s : State) : (takeDoubleFault s).evt = s.evt := rfl
@[simp] theorem takeDoubleFault_sic (s : State) : (takeDoubleFault s).sic = s.sic := rfl
@[simp] theorem takeDoubleFault_idle (s : State) : (takeDoubleFault s).idle = s.idle := rfl
@[simp] theorem takeDoubleFault_mem (s : State) : (takeDoubleFault s).mem = s.mem := rfl
@[simp] theorem takeDoubleFault_memEpoch (s : State) : (takeDoubleFault s).memEpoch = s.memEpoch := rfl
@[simp] theorem takeDoubleFault_plat (s : State) : (takeDoubleFault s).plat = s.plat := rfl
@[simp] theorem takeDoubleFault_env (s : State) : (takeDoubleFault s).env = s.env := rfl
@[simp] theorem takeDoubleFault_draws (s : State) : (takeDoubleFault s).draws = s.draws := rfl
@[simp] theorem takeDoubleFault_mode (s : State) : (takeDoubleFault s).mode = s.mode := State.mode_congr (by simp)

@[simp] theorem State.expire_pc (s : State) (k : LoopIdx) : (s.expire k).pc = s.pc := by unfold State.expire; split <;> simp
@[simp] theorem State.expire_d (s : State) (k : LoopIdx) : (s.expire k).d = s.d := by unfold State.expire; split <;> simp
@[simp] theorem State.expire_p (s : State) (k : LoopIdx) : (s.expire k).p = s.p := by unfold State.expire; split <;> simp
@[simp] theorem State.expire_ssp (s : State) (k : LoopIdx) : (s.expire k).ssp = s.ssp := by unfold State.expire; split <;> simp
@[simp] theorem State.expire_usp (s : State) (k : LoopIdx) : (s.expire k).usp = s.usp := by unfold State.expire; split <;> simp
@[simp] theorem State.expire_fp (s : State) (k : LoopIdx) : (s.expire k).fp = s.fp := by unfold State.expire; split <;> simp
@[simp] theorem State.expire_rets (s : State) (k : LoopIdx) : (s.expire k).rets = s.rets := by unfold State.expire; split <;> simp
@[simp] theorem State.expire_reti (s : State) (k : LoopIdx) : (s.expire k).reti = s.reti := by unfold State.expire; split <;> simp
@[simp] theorem State.expire_retx (s : State) (k : LoopIdx) : (s.expire k).retx = s.retx := by unfold State.expire; split <;> simp
@[simp] theorem State.expire_retn (s : State) (k : LoopIdx) : (s.expire k).retn = s.retn := by unfold State.expire; split <;> simp
@[simp] theorem State.expire_rete (s : State) (k : LoopIdx) : (s.expire k).rete = s.rete := by unfold State.expire; split <;> simp
@[simp] theorem State.expire_seqstat (s : State) (k : LoopIdx) : (s.expire k).seqstat = s.seqstat := by unfold State.expire; split <;> simp
@[simp] theorem State.expire_syscfg (s : State) (k : LoopIdx) : (s.expire k).syscfg = s.syscfg := by unfold State.expire; split <;> simp
@[simp] theorem State.expire_cycles (s : State) (k : LoopIdx) : (s.expire k).cycles = s.cycles := by unfold State.expire; split <;> simp
@[simp] theorem State.expire_cycles2 (s : State) (k : LoopIdx) : (s.expire k).cycles2 = s.cycles2 := by unfold State.expire; split <;> simp
@[simp] theorem State.expire_astat (s : State) (k : LoopIdx) : (s.expire k).astat = s.astat := by unfold State.expire; split <;> simp
@[simp] theorem State.expire_imask (s : State) (k : LoopIdx) : (s.expire k).imask = s.imask := by unfold State.expire; split <;> simp
@[simp] theorem State.expire_ilat (s : State) (k : LoopIdx) : (s.expire k).ilat = s.ilat := by unfold State.expire; split <;> simp
@[simp] theorem State.expire_ipend (s : State) (k : LoopIdx) : (s.expire k).ipend = s.ipend := by unfold State.expire; split <;> simp
@[simp] theorem State.expire_evt (s : State) (k : LoopIdx) : (s.expire k).evt = s.evt := by unfold State.expire; split <;> simp
@[simp] theorem State.expire_sic (s : State) (k : LoopIdx) : (s.expire k).sic = s.sic := by unfold State.expire; split <;> simp
@[simp] theorem State.expire_idle (s : State) (k : LoopIdx) : (s.expire k).idle = s.idle := by unfold State.expire; split <;> simp
@[simp] theorem State.expire_doubleFault (s : State) (k : LoopIdx) : (s.expire k).doubleFault = s.doubleFault := by unfold State.expire; split <;> simp
@[simp] theorem State.expire_mem (s : State) (k : LoopIdx) : (s.expire k).mem = s.mem := by unfold State.expire; split <;> simp
@[simp] theorem State.expire_memEpoch (s : State) (k : LoopIdx) : (s.expire k).memEpoch = s.memEpoch := by unfold State.expire; split <;> simp
@[simp] theorem State.expire_plat (s : State) (k : LoopIdx) : (s.expire k).plat = s.plat := by unfold State.expire; split <;> simp
@[simp] theorem State.expire_env (s : State) (k : LoopIdx) : (s.expire k).env = s.env := by unfold State.expire; split <;> simp
@[simp] theorem State.expire_draws (s : State) (k : LoopIdx) : (s.expire k).draws = s.draws := by unfold State.expire; split <;> simp
@[simp] theorem State.expire_mode (s : State) (k : LoopIdx) : (s.expire k).mode = s.mode := State.mode_congr (by simp)

@[simp] theorem State.loopBack_d (s : State) (k : LoopIdx) : (s.loopBack k).d = s.d := by simp [State.loopBack]
@[simp] theorem State.loopBack_p (s : State) (k : LoopIdx) : (s.loopBack k).p = s.p := by simp [State.loopBack]
@[simp] theorem State.loopBack_ssp (s : State) (k : LoopIdx) : (s.loopBack k).ssp = s.ssp := by simp [State.loopBack]
@[simp] theorem State.loopBack_usp (s : State) (k : LoopIdx) : (s.loopBack k).usp = s.usp := by simp [State.loopBack]
@[simp] theorem State.loopBack_fp (s : State) (k : LoopIdx) : (s.loopBack k).fp = s.fp := by simp [State.loopBack]
@[simp] theorem State.loopBack_rets (s : State) (k : LoopIdx) : (s.loopBack k).rets = s.rets := by simp [State.loopBack]
@[simp] theorem State.loopBack_reti (s : State) (k : LoopIdx) : (s.loopBack k).reti = s.reti := by simp [State.loopBack]
@[simp] theorem State.loopBack_retx (s : State) (k : LoopIdx) : (s.loopBack k).retx = s.retx := by simp [State.loopBack]
@[simp] theorem State.loopBack_retn (s : State) (k : LoopIdx) : (s.loopBack k).retn = s.retn := by simp [State.loopBack]
@[simp] theorem State.loopBack_rete (s : State) (k : LoopIdx) : (s.loopBack k).rete = s.rete := by simp [State.loopBack]
@[simp] theorem State.loopBack_seqstat (s : State) (k : LoopIdx) : (s.loopBack k).seqstat = s.seqstat := by simp [State.loopBack]
@[simp] theorem State.loopBack_syscfg (s : State) (k : LoopIdx) : (s.loopBack k).syscfg = s.syscfg := by simp [State.loopBack]
@[simp] theorem State.loopBack_cycles (s : State) (k : LoopIdx) : (s.loopBack k).cycles = s.cycles := by simp [State.loopBack]
@[simp] theorem State.loopBack_cycles2 (s : State) (k : LoopIdx) : (s.loopBack k).cycles2 = s.cycles2 := by simp [State.loopBack]
@[simp] theorem State.loopBack_astat (s : State) (k : LoopIdx) : (s.loopBack k).astat = s.astat := by simp [State.loopBack]
@[simp] theorem State.loopBack_imask (s : State) (k : LoopIdx) : (s.loopBack k).imask = s.imask := by simp [State.loopBack]
@[simp] theorem State.loopBack_ilat (s : State) (k : LoopIdx) : (s.loopBack k).ilat = s.ilat := by simp [State.loopBack]
@[simp] theorem State.loopBack_ipend (s : State) (k : LoopIdx) : (s.loopBack k).ipend = s.ipend := by simp [State.loopBack]
@[simp] theorem State.loopBack_evt (s : State) (k : LoopIdx) : (s.loopBack k).evt = s.evt := by simp [State.loopBack]
@[simp] theorem State.loopBack_sic (s : State) (k : LoopIdx) : (s.loopBack k).sic = s.sic := by simp [State.loopBack]
@[simp] theorem State.loopBack_idle (s : State) (k : LoopIdx) : (s.loopBack k).idle = s.idle := by simp [State.loopBack]
@[simp] theorem State.loopBack_doubleFault (s : State) (k : LoopIdx) : (s.loopBack k).doubleFault = s.doubleFault := by simp [State.loopBack]
@[simp] theorem State.loopBack_mem (s : State) (k : LoopIdx) : (s.loopBack k).mem = s.mem := by simp [State.loopBack]
@[simp] theorem State.loopBack_memEpoch (s : State) (k : LoopIdx) : (s.loopBack k).memEpoch = s.memEpoch := by simp [State.loopBack]
@[simp] theorem State.loopBack_plat (s : State) (k : LoopIdx) : (s.loopBack k).plat = s.plat := by simp [State.loopBack]
@[simp] theorem State.loopBack_env (s : State) (k : LoopIdx) : (s.loopBack k).env = s.env := by simp [State.loopBack]
@[simp] theorem State.loopBack_draws (s : State) (k : LoopIdx) : (s.loopBack k).draws = s.draws := by simp [State.loopBack]
@[simp] theorem State.loopBack_mode (s : State) (k : LoopIdx) : (s.loopBack k).mode = s.mode := State.mode_congr (by simp)

@[simp] theorem advance_d (len : Word) (s : State) : (advance len s).d = s.d := by unfold advance; split <;> [simp; (split <;> simp)]
@[simp] theorem advance_p (len : Word) (s : State) : (advance len s).p = s.p := by unfold advance; split <;> [simp; (split <;> simp)]
@[simp] theorem advance_ssp (len : Word) (s : State) : (advance len s).ssp = s.ssp := by unfold advance; split <;> [simp; (split <;> simp)]
@[simp] theorem advance_usp (len : Word) (s : State) : (advance len s).usp = s.usp := by unfold advance; split <;> [simp; (split <;> simp)]
@[simp] theorem advance_fp (len : Word) (s : State) : (advance len s).fp = s.fp := by unfold advance; split <;> [simp; (split <;> simp)]
@[simp] theorem advance_rets (len : Word) (s : State) : (advance len s).rets = s.rets := by unfold advance; split <;> [simp; (split <;> simp)]
@[simp] theorem advance_reti (len : Word) (s : State) : (advance len s).reti = s.reti := by unfold advance; split <;> [simp; (split <;> simp)]
@[simp] theorem advance_retx (len : Word) (s : State) : (advance len s).retx = s.retx := by unfold advance; split <;> [simp; (split <;> simp)]
@[simp] theorem advance_retn (len : Word) (s : State) : (advance len s).retn = s.retn := by unfold advance; split <;> [simp; (split <;> simp)]
@[simp] theorem advance_rete (len : Word) (s : State) : (advance len s).rete = s.rete := by unfold advance; split <;> [simp; (split <;> simp)]
@[simp] theorem advance_seqstat (len : Word) (s : State) : (advance len s).seqstat = s.seqstat := by unfold advance; split <;> [simp; (split <;> simp)]
@[simp] theorem advance_syscfg (len : Word) (s : State) : (advance len s).syscfg = s.syscfg := by unfold advance; split <;> [simp; (split <;> simp)]
@[simp] theorem advance_cycles (len : Word) (s : State) : (advance len s).cycles = s.cycles := by unfold advance; split <;> [simp; (split <;> simp)]
@[simp] theorem advance_cycles2 (len : Word) (s : State) : (advance len s).cycles2 = s.cycles2 := by unfold advance; split <;> [simp; (split <;> simp)]
@[simp] theorem advance_astat (len : Word) (s : State) : (advance len s).astat = s.astat := by unfold advance; split <;> [simp; (split <;> simp)]
@[simp] theorem advance_imask (len : Word) (s : State) : (advance len s).imask = s.imask := by unfold advance; split <;> [simp; (split <;> simp)]
@[simp] theorem advance_ilat (len : Word) (s : State) : (advance len s).ilat = s.ilat := by unfold advance; split <;> [simp; (split <;> simp)]
@[simp] theorem advance_ipend (len : Word) (s : State) : (advance len s).ipend = s.ipend := by unfold advance; split <;> [simp; (split <;> simp)]
@[simp] theorem advance_evt (len : Word) (s : State) : (advance len s).evt = s.evt := by unfold advance; split <;> [simp; (split <;> simp)]
@[simp] theorem advance_sic (len : Word) (s : State) : (advance len s).sic = s.sic := by unfold advance; split <;> [simp; (split <;> simp)]
@[simp] theorem advance_idle (len : Word) (s : State) : (advance len s).idle = s.idle := by unfold advance; split <;> [simp; (split <;> simp)]
@[simp] theorem advance_doubleFault (len : Word) (s : State) : (advance len s).doubleFault = s.doubleFault := by unfold advance; split <;> [simp; (split <;> simp)]
@[simp] theorem advance_mem (len : Word) (s : State) : (advance len s).mem = s.mem := by unfold advance; split <;> [simp; (split <;> simp)]
@[simp] theorem advance_memEpoch (len : Word) (s : State) : (advance len s).memEpoch = s.memEpoch := by unfold advance; split <;> [simp; (split <;> simp)]
@[simp] theorem advance_plat (len : Word) (s : State) : (advance len s).plat = s.plat := by unfold advance; split <;> [simp; (split <;> simp)]
@[simp] theorem advance_env (len : Word) (s : State) : (advance len s).env = s.env := by unfold advance; split <;> [simp; (split <;> simp)]
@[simp] theorem advance_draws (len : Word) (s : State) : (advance len s).draws = s.draws := by unfold advance; split <;> [simp; (split <;> simp)]
@[simp] theorem advance_mode (len : Word) (s : State) : (advance len s).mode = s.mode := State.mode_congr (by simp)

@[simp] theorem State.decrementAtEnd_pc (s : State) (k : LoopIdx) : (s.decrementAtEnd k).pc = s.pc := by unfold State.decrementAtEnd; split <;> simp
@[simp] theorem State.decrementAtEnd_d (s : State) (k : LoopIdx) : (s.decrementAtEnd k).d = s.d := by unfold State.decrementAtEnd; split <;> simp
@[simp] theorem State.decrementAtEnd_p (s : State) (k : LoopIdx) : (s.decrementAtEnd k).p = s.p := by unfold State.decrementAtEnd; split <;> simp
@[simp] theorem State.decrementAtEnd_ssp (s : State) (k : LoopIdx) : (s.decrementAtEnd k).ssp = s.ssp := by unfold State.decrementAtEnd; split <;> simp
@[simp] theorem State.decrementAtEnd_usp (s : State) (k : LoopIdx) : (s.decrementAtEnd k).usp = s.usp := by unfold State.decrementAtEnd; split <;> simp
@[simp] theorem State.decrementAtEnd_fp (s : State) (k : LoopIdx) : (s.decrementAtEnd k).fp = s.fp := by unfold State.decrementAtEnd; split <;> simp
@[simp] theorem State.decrementAtEnd_rets (s : State) (k : LoopIdx) : (s.decrementAtEnd k).rets = s.rets := by unfold State.decrementAtEnd; split <;> simp
@[simp] theorem State.decrementAtEnd_reti (s : State) (k : LoopIdx) : (s.decrementAtEnd k).reti = s.reti := by unfold State.decrementAtEnd; split <;> simp
@[simp] theorem State.decrementAtEnd_retx (s : State) (k : LoopIdx) : (s.decrementAtEnd k).retx = s.retx := by unfold State.decrementAtEnd; split <;> simp
@[simp] theorem State.decrementAtEnd_retn (s : State) (k : LoopIdx) : (s.decrementAtEnd k).retn = s.retn := by unfold State.decrementAtEnd; split <;> simp
@[simp] theorem State.decrementAtEnd_rete (s : State) (k : LoopIdx) : (s.decrementAtEnd k).rete = s.rete := by unfold State.decrementAtEnd; split <;> simp
@[simp] theorem State.decrementAtEnd_seqstat (s : State) (k : LoopIdx) : (s.decrementAtEnd k).seqstat = s.seqstat := by unfold State.decrementAtEnd; split <;> simp
@[simp] theorem State.decrementAtEnd_syscfg (s : State) (k : LoopIdx) : (s.decrementAtEnd k).syscfg = s.syscfg := by unfold State.decrementAtEnd; split <;> simp
@[simp] theorem State.decrementAtEnd_cycles (s : State) (k : LoopIdx) : (s.decrementAtEnd k).cycles = s.cycles := by unfold State.decrementAtEnd; split <;> simp
@[simp] theorem State.decrementAtEnd_cycles2 (s : State) (k : LoopIdx) : (s.decrementAtEnd k).cycles2 = s.cycles2 := by unfold State.decrementAtEnd; split <;> simp
@[simp] theorem State.decrementAtEnd_astat (s : State) (k : LoopIdx) : (s.decrementAtEnd k).astat = s.astat := by unfold State.decrementAtEnd; split <;> simp
@[simp] theorem State.decrementAtEnd_imask (s : State) (k : LoopIdx) : (s.decrementAtEnd k).imask = s.imask := by unfold State.decrementAtEnd; split <;> simp
@[simp] theorem State.decrementAtEnd_ilat (s : State) (k : LoopIdx) : (s.decrementAtEnd k).ilat = s.ilat := by unfold State.decrementAtEnd; split <;> simp
@[simp] theorem State.decrementAtEnd_ipend (s : State) (k : LoopIdx) : (s.decrementAtEnd k).ipend = s.ipend := by unfold State.decrementAtEnd; split <;> simp
@[simp] theorem State.decrementAtEnd_evt (s : State) (k : LoopIdx) : (s.decrementAtEnd k).evt = s.evt := by unfold State.decrementAtEnd; split <;> simp
@[simp] theorem State.decrementAtEnd_sic (s : State) (k : LoopIdx) : (s.decrementAtEnd k).sic = s.sic := by unfold State.decrementAtEnd; split <;> simp
@[simp] theorem State.decrementAtEnd_idle (s : State) (k : LoopIdx) : (s.decrementAtEnd k).idle = s.idle := by unfold State.decrementAtEnd; split <;> simp
@[simp] theorem State.decrementAtEnd_doubleFault (s : State) (k : LoopIdx) : (s.decrementAtEnd k).doubleFault = s.doubleFault := by unfold State.decrementAtEnd; split <;> simp
@[simp] theorem State.decrementAtEnd_mem (s : State) (k : LoopIdx) : (s.decrementAtEnd k).mem = s.mem := by unfold State.decrementAtEnd; split <;> simp
@[simp] theorem State.decrementAtEnd_memEpoch (s : State) (k : LoopIdx) : (s.decrementAtEnd k).memEpoch = s.memEpoch := by unfold State.decrementAtEnd; split <;> simp
@[simp] theorem State.decrementAtEnd_plat (s : State) (k : LoopIdx) : (s.decrementAtEnd k).plat = s.plat := by unfold State.decrementAtEnd; split <;> simp
@[simp] theorem State.decrementAtEnd_env (s : State) (k : LoopIdx) : (s.decrementAtEnd k).env = s.env := by unfold State.decrementAtEnd; split <;> simp
@[simp] theorem State.decrementAtEnd_draws (s : State) (k : LoopIdx) : (s.decrementAtEnd k).draws = s.draws := by unfold State.decrementAtEnd; split <;> simp
@[simp] theorem State.decrementAtEnd_mode (s : State) (k : LoopIdx) : (s.decrementAtEnd k).mode = s.mode := State.mode_congr (by simp)

@[simp] theorem transferLoops_pc (s : State) : (transferLoops s).pc = s.pc := by unfold transferLoops; split <;> simp
@[simp] theorem transferLoops_d (s : State) : (transferLoops s).d = s.d := by unfold transferLoops; split <;> simp
@[simp] theorem transferLoops_p (s : State) : (transferLoops s).p = s.p := by unfold transferLoops; split <;> simp
@[simp] theorem transferLoops_ssp (s : State) : (transferLoops s).ssp = s.ssp := by unfold transferLoops; split <;> simp
@[simp] theorem transferLoops_usp (s : State) : (transferLoops s).usp = s.usp := by unfold transferLoops; split <;> simp
@[simp] theorem transferLoops_fp (s : State) : (transferLoops s).fp = s.fp := by unfold transferLoops; split <;> simp
@[simp] theorem transferLoops_rets (s : State) : (transferLoops s).rets = s.rets := by unfold transferLoops; split <;> simp
@[simp] theorem transferLoops_reti (s : State) : (transferLoops s).reti = s.reti := by unfold transferLoops; split <;> simp
@[simp] theorem transferLoops_retx (s : State) : (transferLoops s).retx = s.retx := by unfold transferLoops; split <;> simp
@[simp] theorem transferLoops_retn (s : State) : (transferLoops s).retn = s.retn := by unfold transferLoops; split <;> simp
@[simp] theorem transferLoops_rete (s : State) : (transferLoops s).rete = s.rete := by unfold transferLoops; split <;> simp
@[simp] theorem transferLoops_seqstat (s : State) : (transferLoops s).seqstat = s.seqstat := by unfold transferLoops; split <;> simp
@[simp] theorem transferLoops_syscfg (s : State) : (transferLoops s).syscfg = s.syscfg := by unfold transferLoops; split <;> simp
@[simp] theorem transferLoops_cycles (s : State) : (transferLoops s).cycles = s.cycles := by unfold transferLoops; split <;> simp
@[simp] theorem transferLoops_cycles2 (s : State) : (transferLoops s).cycles2 = s.cycles2 := by unfold transferLoops; split <;> simp
@[simp] theorem transferLoops_astat (s : State) : (transferLoops s).astat = s.astat := by unfold transferLoops; split <;> simp
@[simp] theorem transferLoops_imask (s : State) : (transferLoops s).imask = s.imask := by unfold transferLoops; split <;> simp
@[simp] theorem transferLoops_ilat (s : State) : (transferLoops s).ilat = s.ilat := by unfold transferLoops; split <;> simp
@[simp] theorem transferLoops_ipend (s : State) : (transferLoops s).ipend = s.ipend := by unfold transferLoops; split <;> simp
@[simp] theorem transferLoops_evt (s : State) : (transferLoops s).evt = s.evt := by unfold transferLoops; split <;> simp
@[simp] theorem transferLoops_sic (s : State) : (transferLoops s).sic = s.sic := by unfold transferLoops; split <;> simp
@[simp] theorem transferLoops_idle (s : State) : (transferLoops s).idle = s.idle := by unfold transferLoops; split <;> simp
@[simp] theorem transferLoops_doubleFault (s : State) : (transferLoops s).doubleFault = s.doubleFault := by unfold transferLoops; split <;> simp
@[simp] theorem transferLoops_mem (s : State) : (transferLoops s).mem = s.mem := by unfold transferLoops; split <;> simp
@[simp] theorem transferLoops_memEpoch (s : State) : (transferLoops s).memEpoch = s.memEpoch := by unfold transferLoops; split <;> simp
@[simp] theorem transferLoops_plat (s : State) : (transferLoops s).plat = s.plat := by unfold transferLoops; split <;> simp
@[simp] theorem transferLoops_env (s : State) : (transferLoops s).env = s.env := by unfold transferLoops; split <;> simp
@[simp] theorem transferLoops_draws (s : State) : (transferLoops s).draws = s.draws := by unfold transferLoops; split <;> simp
@[simp] theorem transferLoops_mode (s : State) : (transferLoops s).mode = s.mode := State.mode_congr (by simp)

@[simp] theorem transfer_d (target : Word) (s : State) : (transfer target s).d = s.d := by simp [transfer]
@[simp] theorem transfer_p (target : Word) (s : State) : (transfer target s).p = s.p := by simp [transfer]
@[simp] theorem transfer_ssp (target : Word) (s : State) : (transfer target s).ssp = s.ssp := by simp [transfer]
@[simp] theorem transfer_usp (target : Word) (s : State) : (transfer target s).usp = s.usp := by simp [transfer]
@[simp] theorem transfer_fp (target : Word) (s : State) : (transfer target s).fp = s.fp := by simp [transfer]
@[simp] theorem transfer_rets (target : Word) (s : State) : (transfer target s).rets = s.rets := by simp [transfer]
@[simp] theorem transfer_reti (target : Word) (s : State) : (transfer target s).reti = s.reti := by simp [transfer]
@[simp] theorem transfer_retx (target : Word) (s : State) : (transfer target s).retx = s.retx := by simp [transfer]
@[simp] theorem transfer_retn (target : Word) (s : State) : (transfer target s).retn = s.retn := by simp [transfer]
@[simp] theorem transfer_rete (target : Word) (s : State) : (transfer target s).rete = s.rete := by simp [transfer]
@[simp] theorem transfer_seqstat (target : Word) (s : State) : (transfer target s).seqstat = s.seqstat := by simp [transfer]
@[simp] theorem transfer_syscfg (target : Word) (s : State) : (transfer target s).syscfg = s.syscfg := by simp [transfer]
@[simp] theorem transfer_cycles (target : Word) (s : State) : (transfer target s).cycles = s.cycles := by simp [transfer]
@[simp] theorem transfer_cycles2 (target : Word) (s : State) : (transfer target s).cycles2 = s.cycles2 := by simp [transfer]
@[simp] theorem transfer_astat (target : Word) (s : State) : (transfer target s).astat = s.astat := by simp [transfer]
@[simp] theorem transfer_imask (target : Word) (s : State) : (transfer target s).imask = s.imask := by simp [transfer]
@[simp] theorem transfer_ilat (target : Word) (s : State) : (transfer target s).ilat = s.ilat := by simp [transfer]
@[simp] theorem transfer_ipend (target : Word) (s : State) : (transfer target s).ipend = s.ipend := by simp [transfer]
@[simp] theorem transfer_evt (target : Word) (s : State) : (transfer target s).evt = s.evt := by simp [transfer]
@[simp] theorem transfer_sic (target : Word) (s : State) : (transfer target s).sic = s.sic := by simp [transfer]
@[simp] theorem transfer_idle (target : Word) (s : State) : (transfer target s).idle = s.idle := by simp [transfer]
@[simp] theorem transfer_doubleFault (target : Word) (s : State) : (transfer target s).doubleFault = s.doubleFault := by simp [transfer]
@[simp] theorem transfer_mem (target : Word) (s : State) : (transfer target s).mem = s.mem := by simp [transfer]
@[simp] theorem transfer_memEpoch (target : Word) (s : State) : (transfer target s).memEpoch = s.memEpoch := by simp [transfer]
@[simp] theorem transfer_plat (target : Word) (s : State) : (transfer target s).plat = s.plat := by simp [transfer]
@[simp] theorem transfer_env (target : Word) (s : State) : (transfer target s).env = s.env := by simp [transfer]
@[simp] theorem transfer_draws (target : Word) (s : State) : (transfer target s).draws = s.draws := by simp [transfer]
@[simp] theorem transfer_mode (target : Word) (s : State) : (transfer target s).mode = s.mode := State.mode_congr (by simp)

@[simp] theorem State.setDataWord_pc (s : State) (a : Nat) (v : Word) : (s.setDataWord a v).pc = s.pc := rfl
@[simp] theorem State.setDataWord_d (s : State) (a : Nat) (v : Word) : (s.setDataWord a v).d = s.d := rfl
@[simp] theorem State.setDataWord_p (s : State) (a : Nat) (v : Word) : (s.setDataWord a v).p = s.p := rfl
@[simp] theorem State.setDataWord_ssp (s : State) (a : Nat) (v : Word) : (s.setDataWord a v).ssp = s.ssp := rfl
@[simp] theorem State.setDataWord_usp (s : State) (a : Nat) (v : Word) : (s.setDataWord a v).usp = s.usp := rfl
@[simp] theorem State.setDataWord_fp (s : State) (a : Nat) (v : Word) : (s.setDataWord a v).fp = s.fp := rfl
@[simp] theorem State.setDataWord_rets (s : State) (a : Nat) (v : Word) : (s.setDataWord a v).rets = s.rets := rfl
@[simp] theorem State.setDataWord_reti (s : State) (a : Nat) (v : Word) : (s.setDataWord a v).reti = s.reti := rfl
@[simp] theorem State.setDataWord_retx (s : State) (a : Nat) (v : Word) : (s.setDataWord a v).retx = s.retx := rfl
@[simp] theorem State.setDataWord_retn (s : State) (a : Nat) (v : Word) : (s.setDataWord a v).retn = s.retn := rfl
@[simp] theorem State.setDataWord_rete (s : State) (a : Nat) (v : Word) : (s.setDataWord a v).rete = s.rete := rfl
@[simp] theorem State.setDataWord_loop0 (s : State) (a : Nat) (v : Word) : (s.setDataWord a v).loop0 = s.loop0 := rfl
@[simp] theorem State.setDataWord_loop1 (s : State) (a : Nat) (v : Word) : (s.setDataWord a v).loop1 = s.loop1 := rfl
@[simp] theorem State.setDataWord_seqstat (s : State) (a : Nat) (v : Word) : (s.setDataWord a v).seqstat = s.seqstat := rfl
@[simp] theorem State.setDataWord_syscfg (s : State) (a : Nat) (v : Word) : (s.setDataWord a v).syscfg = s.syscfg := rfl
@[simp] theorem State.setDataWord_cycles (s : State) (a : Nat) (v : Word) : (s.setDataWord a v).cycles = s.cycles := rfl
@[simp] theorem State.setDataWord_cycles2 (s : State) (a : Nat) (v : Word) : (s.setDataWord a v).cycles2 = s.cycles2 := rfl
@[simp] theorem State.setDataWord_astat (s : State) (a : Nat) (v : Word) : (s.setDataWord a v).astat = s.astat := rfl
@[simp] theorem State.setDataWord_imask (s : State) (a : Nat) (v : Word) : (s.setDataWord a v).imask = s.imask := rfl
@[simp] theorem State.setDataWord_ilat (s : State) (a : Nat) (v : Word) : (s.setDataWord a v).ilat = s.ilat := rfl
@[simp] theorem State.setDataWord_ipend (s : State) (a : Nat) (v : Word) : (s.setDataWord a v).ipend = s.ipend := rfl
@[simp] theorem State.setDataWord_evt (s : State) (a : Nat) (v : Word) : (s.setDataWord a v).evt = s.evt := rfl
@[simp] theorem State.setDataWord_sic (s : State) (a : Nat) (v : Word) : (s.setDataWord a v).sic = s.sic := rfl
@[simp] theorem State.setDataWord_idle (s : State) (a : Nat) (v : Word) : (s.setDataWord a v).idle = s.idle := rfl
@[simp] theorem State.setDataWord_doubleFault (s : State) (a : Nat) (v : Word) : (s.setDataWord a v).doubleFault = s.doubleFault := rfl
@[simp] theorem State.setDataWord_memEpoch (s : State) (a : Nat) (v : Word) : (s.setDataWord a v).memEpoch = s.memEpoch := rfl
@[simp] theorem State.setDataWord_plat (s : State) (a : Nat) (v : Word) : (s.setDataWord a v).plat = s.plat := rfl
@[simp] theorem State.setDataWord_env (s : State) (a : Nat) (v : Word) : (s.setDataWord a v).env = s.env := rfl
@[simp] theorem State.setDataWord_draws (s : State) (a : Nat) (v : Word) : (s.setDataWord a v).draws = s.draws := rfl
@[simp] theorem State.setDataWord_mode (s : State) (a : Nat) (v : Word) : (s.setDataWord a v).mode = s.mode := State.mode_congr (by simp)


/-! ## Events and exceptions -/

@[simp] theorem takeEvent_pc (n : Fin 16) (ret : Word) (s : State) : (takeEvent n ret s).pc = s.evt.get n := rfl

@[simp] theorem takeEvent_idle (n : Fin 16) (ret : Word) (s : State) : (takeEvent n ret s).idle = false := rfl

@[simp] theorem takeEvent_ipend (n : Fin 16) (ret : Word) (s : State) :
    (takeEvent n ret s).ipend = s.ipend ||| entryBits n := rfl

@[simp] theorem takeEvent_ilat (n : Fin 16) (ret : Word) (s : State) :
    (takeEvent n ret s).ilat = s.ilat &&& ~~~(1#16 <<< n.val) := rfl

@[simp] theorem takeEvent_sic (n : Fin 16) (ret : Word) (s : State) :
    (takeEvent n ret s).sic = s.sic.acknowledge n := rfl

/-- Event entry writes the return register of the event and no other (60_exceptions.md R400). -/
theorem takeEvent_returns (n : Fin 16) (ret : Word) (s : State) :
    (takeEvent n ret s).retn = (if n = 2 then ret else s.retn) ∧
    (takeEvent n ret s).retx = (if n = 3 then ret else s.retx) ∧
    (takeEvent n ret s).reti = (if 5 ≤ n.val then ret else s.reti) := by
  by_cases h2 : n = 2
  · subst h2; exact ⟨rfl, rfl, rfl⟩
  · by_cases h3 : n = 3
    · subst h3; exact ⟨rfl, rfl, rfl⟩
    · by_cases h5 : 5 ≤ n.val
      · simp [takeEvent, State.saveReturn, h2, h3, h5]
      · simp [takeEvent, State.saveReturn, h2, h3, h5]

/-- Memory is read alike in states with the same memory and the same count of resets. -/
theorem State.dataByte_congr {s t : State} (h : t.mem = s.mem) (he : t.memEpoch = s.memEpoch) (a : Nat) :
    t.dataByte a = s.dataByte a := by
  simp [State.dataByte, h, he]

/-- A word of memory is read alike in states with the same memory and the same count of resets. -/
theorem State.dataWord_congr {s t : State} (h : t.mem = s.mem) (he : t.memEpoch = s.memEpoch) (a : Nat) :
    t.dataWord a = s.dataWord a := by
  simp [State.dataWord, State.dataByte_congr h he]

/-! ## The next address and transfers -/

/-- At no loop end the next address is `pc + len` and the units are kept (43_loops.md R256). -/
theorem advance_plain (len : Word) (s : State) (h : ∀ k, s.pc ≠ (s.loop k).lb) : advance len s = s.setPc (s.pc + len) := by
  have h1 := h .l1
  have h0 := h .l0
  simp [advance, State.loopsBack, State.expire, h1, h0]

/-- A decrement at an active end changes LC of its unit alone (43_loops.md R259). -/
theorem State.decrementAtEnd_loop (s : State) (j k : LoopIdx) :
    (s.decrementAtEnd k).loop j =
      if j = k ∧ s.atActiveEnd k = true then ⟨(s.loop k).lc - 1, (s.loop k).lt, (s.loop k).lb⟩ else s.loop j := by
  unfold State.decrementAtEnd
  split
  · rw [State.setLoop_loop]; simp [*]
  · simp [*]

/-- A taken transfer keeps the units but for a decrement at an active loop end (43_loops.md R259). -/
theorem transferLoops_loop (s : State) (k : LoopIdx) :
    (transferLoops s).loop k =
      ⟨if s.plat.loopEndTransfer = .transferWinsDecrement ∧ s.pc = (s.loop k).lb ∧ (s.loop k).lc ≠ 0 then (s.loop k).lc - 1
        else (s.loop k).lc, (s.loop k).lt, (s.loop k).lb⟩ := by
  have h1 : (s.decrementAtEnd .l0).atActiveEnd .l1 = s.atActiveEnd .l1 := by
    simp [State.atActiveEnd, State.decrementAtEnd_loop]
  have ha (j : LoopIdx) : s.atActiveEnd j = true ↔ s.pc = (s.loop j).lb ∧ (s.loop j).lc ≠ 0 := by
    simp [State.atActiveEnd]
  unfold transferLoops
  cases s.plat.loopEndTransfer
  · simp
  · simp
  · simp only [State.decrementAtEnd_loop, h1, ha, true_and]
    cases k <;> simp only [reduceCtorEq, false_and, true_and, if_false] <;> split <;> simp_all

/-- A transfer ends as `transferLoops` says, at its target. -/
theorem transfer_loop (target : Word) (s : State) (k : LoopIdx) : (transfer target s).loop k = (transferLoops s).loop k := by
  cases k <;> rfl

/-- What a taken transfer answers, once: the refusal of LOOP_END_TRANSFER, or the transfer. -/
theorem takeTransfer_cases (target : Word) (s : State) :
    (s.transferRefused = true ∧ takeTransfer target s = .refused .loopEndTransfer) ∨
      (s.transferRefused = false ∧ takeTransfer target s = .next (transfer target s)) := by
  unfold takeTransfer; split
  · rename_i h; exact .inl ⟨h, rfl⟩
  · rename_i h; exact .inr ⟨by simpa using h, rfl⟩

/-- A taken transfer that answers a state answers the transfer. -/
theorem takeTransfer_next {target : Word} {s t : State} (h : takeTransfer target s = .next t) : t = transfer target s := by
  rcases takeTransfer_cases target s with ⟨_, e⟩ | ⟨_, e⟩ <;> rw [e] at h <;> cases h
  rfl

@[simp] theorem transfer_pc (target : Word) (s : State) : (transfer target s).pc = target := rfl

/-! ## Access to data memory -/

/-- Where a 32-bit access can end, once: misaligned, a register in User mode, a register, PROGRAM, MEM, or nowhere. -/
theorem accessTarget_cases (a : Word) (s : State) :
    (a.extractLsb' 0 2 ≠ 0#2 ∧ accessTarget a s = .error (.exc .dataMisaligned)) ∨
    (a.extractLsb' 0 2 = 0#2 ∧ (mmrAt a).isSome ∧ s.mode = .user ∧ accessTarget a s = .error (.exc .dataProtection)) ∨
    (∃ m, a.extractLsb' 0 2 = 0#2 ∧ mmrAt a = some m ∧ s.mode ≠ .user ∧ accessTarget a s = .ok (some m)) ∨
    (a.extractLsb' 0 2 = 0#2 ∧ mmrAt a = none ∧ accessTarget a s = .error (.refusal .programAccess)) ∨
    (a.extractLsb' 0 2 = 0#2 ∧ mmrAt a = none ∧ accessTarget a s = .ok none) ∨
    (a.extractLsb' 0 2 = 0#2 ∧ mmrAt a = none ∧ accessTarget a s = .error (.fault .unmappedData)) := by
  unfold accessTarget
  by_cases h : a.extractLsb' 0 2 = 0#2
  · rw [if_neg (by simpa using h)]
    cases hm : mmrAt a with
    | some m =>
      by_cases hu : s.mode = .user
      · exact .inr (.inl ⟨h, rfl, hu, by simp [hu]⟩)
      · exact .inr (.inr (.inl ⟨m, h, rfl, hu, by simp [hu]⟩))
    | none =>
      simp only
      split
      · exact .inr (.inr (.inr (.inl ⟨h, by trivial, by trivial⟩)))
      · split
        · exact .inr (.inr (.inr (.inr (.inl ⟨h, by trivial, by trivial⟩))))
        · exact .inr (.inr (.inr (.inr (.inr ⟨h, by trivial, by trivial⟩))))
  · exact .inl ⟨h, by rw [if_pos h]⟩

/-- The target of an access depends on the mode and the platform alone. -/
theorem accessTarget_congr (a : Word) {s t : State} (hm : t.mode = s.mode) (hp : t.plat = s.plat) :
    accessTarget a t = accessTarget a s := by
  have h1 : t.isProgram = s.isProgram := by funext b; simp only [State.isProgram, hp]
  have h2 : t.isRam = s.isRam := by funext b; simp only [State.isRam, hp]
  unfold accessTarget
  rw [hm, h1, h2]

/-- What a store that answers can have done: data memory, one core register, or one system register. -/
theorem memWrite_cases {a v : Word} {s t : State} (h : memWrite a v s = .ok t) :
    (accessTarget a s = .ok none ∧ t = s.setDataWord a.toNat v) ∨
    (∃ m, accessTarget a s = .ok (some m) ∧ mmrWrite m v s = .ok t) := by
  unfold memWrite at h
  cases hk : accessTarget a s with
  | error e => simp [hk] at h
  | ok o =>
    cases o with
    | none => simp only [hk, Except.ok.injEq] at h; exact .inl ⟨rfl, h.symm⟩
    | some m => simp only [hk] at h; exact .inr ⟨m, rfl, h⟩

/-- What a store to a register that answers can have done. -/
theorem mmrWrite_cases {m : Mmr} {v : Word} {s t : State} (h : mmrWrite m v s = .ok t) :
    (∃ n, t = s.setEvt n v) ∨ t = s.writeImask v ∨ t = s ∨
    (t = s.setIlat (s.ilat &&& ~~~(ilatClearMask v)) ∧ ilatClearMask v &&& s.imask = 0#16) ∨
    (∃ c : Sic, t = s.setSic c ∧ c.isr = s.sic.isr ∧ c.sent = s.sic.sent) := by
  cases m with
  | evt n => simp only [mmrWrite, Except.ok.injEq] at h; exact .inl ⟨n, h.symm⟩
  | imask => simp only [mmrWrite, Except.ok.injEq] at h; exact .inr (.inl h.symm)
  | ipend => simp only [mmrWrite, Except.ok.injEq] at h; exact .inr (.inr (.inl h.symm))
  | sicIsr => simp only [mmrWrite, Except.ok.injEq] at h; exact .inr (.inr (.inl h.symm))
  | ilat =>
    simp only [mmrWrite] at h
    split at h
    · cases h
    · rename_i hc
      simp only [Except.ok.injEq] at h
      exact .inr (.inr (.inr (.inl ⟨h.symm, by simpa using hc⟩)))
  | sicImask =>
    simp only [mmrWrite, Except.ok.injEq] at h
    exact .inr (.inr (.inr (.inr ⟨_, h.symm, rfl, rfl⟩)))
  | sicIar0 | sicIar1 | sicIar2 | sicIwr =>
    simp only [mmrWrite, sicConfigure] at h
    split at h
    · cases h
    · simp only [Except.ok.injEq] at h
      exact .inr (.inr (.inr (.inr ⟨_, h.symm, rfl, rfl⟩)))

/-- An aligned word lies below 2^32. -/
theorem aligned_bound (a : Word) (h : a.extractLsb' 0 2 = 0#2) : a.toNat + 4 ≤ 0x100000000 := by
  have h2 : a.toNat % 4 = 0 := by
    have := congrArg BitVec.toNat h
    simpa [BitVec.extractLsb'_toNat] using this
  have := a.isLt
  omega

end Sys2Proof.Machine
end

