-- ==== Sys2Proof/Laws/Cases.lean ====
section
/-! SUPPORT. For the operations that can go more than one way, one lemma each that says everything they can do; and the lemmas
about the terms of Safety.lean. -/

namespace Sys2Proof.Machine

/-! ## Operands -/

/-- The stack pointer depends on the mode and the two stack pointers alone. -/
theorem State.sp_congr {s t : State} (hm : t.mode = s.mode) (h1 : t.ssp = s.ssp) (h2 : t.usp = s.usp) : t.sp = s.sp := by
  unfold State.sp; rw [hm, h1, h2]

/-- A write of a register of the two files leaves the others. -/
theorem State.setGreg_greg_of_ne (s : State) (r q : GReg) (v : Word) (h : q ≠ r) : (s.setGreg r v).greg q = s.greg q := by
  rcases r with d | p <;> rcases q with d' | p'
  · have : d.val ≠ d'.val := by intro hc; apply h; rw [Fin.ext hc]
    simp [State.greg, State.setGreg, State.dreg, Vector.get_eq_getElem, this]
  · cases p' with
    | p n => simp [State.greg, State.setGreg, State.preg]
    | fp => simp [State.greg, State.setGreg, State.preg]
    | sp => exact State.sp_congr (by simp [State.setGreg]) (by simp [State.setGreg]) (by simp [State.setGreg])
  · cases p <;> simp [State.greg, State.setGreg, State.setPreg, State.dreg]
  · rcases p with n | _ | _ <;> rcases p' with n' | _ | _ <;> first
      | exact absurd rfl h
      | exact State.sp_congr rfl rfl rfl
      | (simp [State.greg, State.setGreg, State.setPreg, State.preg]; done)
      | skip
    have : n.val ≠ n'.val := by intro hc; apply h; rw [Fin.ext hc]
    simp [State.greg, State.setGreg, State.setPreg, State.preg, Vector.get_eq_getElem, this]

/-- The byte offset of JUMP.S as a number. -/
theorem offset13_eq (f : BitVec 12) : offset13 f = BitVec.ofInt 32 (2 * f.toInt) := by
  apply BitVec.eq_of_toInt_eq
  unfold offset13
  rw [BitVec.toInt_signExtend_of_le (by omega), BitVec.toInt_ofInt]
  have h1 : (f ++ 0#1).toInt = 2 * f.toInt := by
    rw [BitVec.toInt_append_zero]; ring
  rw [h1]
  have := BitVec.toInt_lt (x := f); have := BitVec.le_toInt (x := f)
  symm; apply Int.bmod_eq_of_le <;> omega

/-- The byte offset of JUMP.L and CALL as a number. -/
theorem offset25_eq (f : BitVec 24) : offset25 f = BitVec.ofInt 32 (2 * f.toInt) := by
  apply BitVec.eq_of_toInt_eq
  unfold offset25
  rw [BitVec.toInt_signExtend_of_le (by omega), BitVec.toInt_ofInt]
  have h1 : (f ++ 0#1).toInt = 2 * f.toInt := by
    rw [BitVec.toInt_append_zero]; ring
  rw [h1]
  have := BitVec.toInt_lt (x := f); have := BitVec.le_toInt (x := f)
  symm; apply Int.bmod_eq_of_le <;> omega

/-- The byte offset of a conditional jump as a number. -/
theorem offset11_eq (f : BitVec 10) : offset11 f = BitVec.ofInt 32 (2 * f.toInt) := by
  apply BitVec.eq_of_toInt_eq
  unfold offset11
  rw [BitVec.toInt_signExtend_of_le (by omega), BitVec.toInt_ofInt]
  have h1 : (f ++ 0#1).toInt = 2 * f.toInt := by
    rw [BitVec.toInt_append_zero]; ring
  rw [h1]
  have := BitVec.toInt_lt (x := f); have := BitVec.le_toInt (x := f)
  symm; apply Int.bmod_eq_of_le <;> omega

/-- Clearing IPEND[4] keeps the mode. -/
theorem State.mode_clear4 (s : State) : (s.setIpend (s.ipend &&& 0xFFEF#16)).mode = s.mode := by
  have h1 : (s.ipend &&& 0xFFEF#16).getLsbD 0 = s.ipend.getLsbD 0 := by rw [BitVec.getLsbD_and]; simp
  have h2 : (s.ipend &&& 0xFFEF#16) &&& 0xFFEE#16 = s.ipend &&& 0xFFEE#16 := by rw [BitVec.and_assoc]; rfl
  unfold State.mode; rw [State.setIpend_ipend, h1, h2]

/-- Setting IPEND[4] keeps the mode. -/
theorem State.mode_set4 (s : State) : (s.setIpend (s.ipend ||| 0x0010#16)).mode = s.mode := by
  have h1 : (s.ipend ||| 0x0010#16).getLsbD 0 = s.ipend.getLsbD 0 := by rw [BitVec.getLsbD_or]; simp
  have h2 : (s.ipend ||| 0x0010#16) &&& 0xFFEE#16 = s.ipend &&& 0xFFEE#16 := by
    apply BitVec.eq_of_getLsbD_eq
    intro i hi
    rw [BitVec.getLsbD_and, BitVec.getLsbD_or, BitVec.getLsbD_and]
    interval_cases i <;> simp
  unfold State.mode; rw [State.setIpend_ipend, h1, h2]

/-! ## The next address -/

/-- Everything `advance` can do to pc and the loop units: unit 1 loops back; or unit 1 expires or is kept, and unit 0 loops
back, or expires or is kept and pc is the next address. -/
theorem advance_cases (len : Word) (s : State) :
   ((s.pc = s.loop1.lb ∧ 2 ≤ s.loop1.lc.toNat) ∧ (advance len s).pc = s.loop1.lt ∧ (advance len s).loop1 = ⟨s.loop1.lc - 1,
       s.loop1.lt, s.loop1.lb⟩ ∧ (advance len s).loop0 = s.loop0) ∨
   (¬ (s.pc = s.loop1.lb ∧ 2 ≤ s.loop1.lc.toNat) ∧
     (advance len s).loop1 = ⟨if s.pc = s.loop1.lb ∧ s.loop1.lc = 1 then 0 else s.loop1.lc, s.loop1.lt, s.loop1.lb⟩ ∧
     (((s.pc = s.loop0.lb ∧ 2 ≤ s.loop0.lc.toNat) ∧ (advance len s).pc = s.loop0.lt ∧
         (advance len s).loop0 = ⟨s.loop0.lc - 1, s.loop0.lt, s.loop0.lb⟩) ∨
      (¬ (s.pc = s.loop0.lb ∧ 2 ≤ s.loop0.lc.toNat) ∧ (advance len s).pc = s.pc + len ∧
          (advance len s).loop0 = ⟨if s.pc = s.loop0.lb ∧ s.loop0.lc = 1 then 0 else s.loop0.lc, s.loop0.lt,
              s.loop0.lb⟩))) := by
  have e1 : (s.expire .l1).pc = s.pc := by simp
  have e0 : (s.expire .l1).loop0 = s.loop0 := by unfold State.expire; split <;> rfl
  have e11 : (s.expire .l1).loop1 = ⟨if s.pc = s.loop1.lb ∧ s.loop1.lc = 1 then 0 else s.loop1.lc, s.loop1.lt,
      s.loop1.lb⟩ := by
    unfold State.expire; simp only [State.loop]; split <;> (rename_i h; simp only [h]; simp [State.setLoop])
  have f1 (u : State): (u.expire .l0).loop1 = u.loop1 := by unfold State.expire; split <;> rfl
  have f0 (u : State): (u.expire .l0).loop0 = ⟨if u.pc = u.loop0.lb ∧ u.loop0.lc = 1 then 0 else u.loop0.lc, u.loop0.lt,
      u.loop0.lb⟩ := by
    unfold State.expire; simp only [State.loop]; split <;> (rename_i h; simp only [h]; simp [State.setLoop])
  unfold advance
  by_cases h1 : s.pc = s.loop1.lb ∧ 2 ≤ s.loop1.lc.toNat
  · rw [if_pos (by unfold State.loopsBack State.loop; rw [Bool.and_eq_true, decide_eq_true_eq, decide_eq_true_eq]; exact h1)]
    exact .inl ⟨h1, rfl, rfl, rfl⟩
  · rw [if_neg (by unfold State.loopsBack State.loop; rw [Bool.and_eq_true, decide_eq_true_eq, decide_eq_true_eq]; exact h1)]
    refine .inr ⟨h1, ?_⟩
    by_cases h0 : s.pc = s.loop0.lb ∧ 2 ≤ s.loop0.lc.toNat
    · rw [if_pos (by unfold State.loopsBack State.loop; simp only [e1, e0]; rw [Bool.and_eq_true, decide_eq_true_eq,
        decide_eq_true_eq]; exact h0)]
      refine ⟨e11, .inl ⟨h0, ?_, ?_⟩⟩
      · show (s.expire .l1).loop0.lt = _; rw [e0]
      · show LoopUnit.mk ((s.expire .l1).loop0.lc - 1) ((s.expire .l1).loop0.lt) ((s.expire .l1).loop0.lb) = _; rw [e0]
    · rw [if_neg (by unfold State.loopsBack State.loop; simp only [e1, e0]; rw [Bool.and_eq_true, decide_eq_true_eq,
        decide_eq_true_eq]; exact h0)]
      refine ⟨?_, .inr ⟨h0, rfl, ?_⟩⟩
      · simp only [State.setPc_loop1, f1, e11]
      · simp only [State.setPc_loop0, f0, e0, e1]

/-! ## The terms of the claims -/

/-- A taken transfer keeps everything but pc and the loop units. -/
theorem sameButFlow_transfer (tg : Word) (u : State) : sameButFlow u (transfer tg u) := by
  simp [sameButFlow, sameCore, keepsGeneral, keepsReturns, keepsEvents, keepsWorld, keepsMemory]
  intro a; exact State.dataByte_congr (by simp) (by simp) a

/-- Going on keeps everything but pc and the loop units. -/
theorem sameButFlow_advance (l : Word) (u : State) : sameButFlow u (advance l u) := by
  simp [sameButFlow, sameCore, keepsGeneral, keepsReturns, keepsEvents, keepsWorld, keepsMemory]
  intro a; exact State.dataByte_congr (by simp) (by simp) a

/-- A taken transfer goes to its target. -/
theorem goesTo_transfer (tg : Word) (s u : State) (h1 : u.pc = s.pc) (h2 : ∀ k,
    u.loop k = s.loop k) (h3 : u.plat = s.plat) : goesTo tg s (transfer tg u) := by
  refine ⟨rfl, fun k => ?_⟩
  rw [transfer_loop, transferLoops_loop, ← h2 k, ← h1, ← h3]
  exact ⟨rfl, rfl, rfl⟩

/-- What `transferRefused` decides is that a taken transfer has no meaning. -/
theorem transferRefused_iff (s : State) : s.transferRefused = true ↔ ¬ s.transferHasMeaning := by
  unfold State.transferRefused State.transferHasMeaning State.atActiveEnd
  simp only [Bool.and_eq_true, Bool.or_eq_true, decide_eq_true_eq]
  constructor
  · rintro ⟨h, ⟨h1, h2⟩ | ⟨h1, h2⟩⟩ hh <;> exact h2 (hh h _ h1)
  · intro h
    refine ⟨by_contra fun hc => h fun hr => absurd hr hc, by_contra fun hc => h fun _ k hk => ?_⟩
    by_contra hl
    cases k
    · exact hc (.inl ⟨hk, hl⟩)
    · exact hc (.inr ⟨hk, hl⟩)

/-- A taken transfer that has a meaning goes to its target and changes nothing else. `u` is the state it transfers from, `s` the
one before the instruction. -/
theorem takeTransfer_goesTo (tg : Word) {s u : State} (h : s.transferHasMeaning) (h1 : u.pc = s.pc)
    (h2 : ∀ k, u.loop k = s.loop k) (h3 : u.plat = s.plat) :
    takeTransfer tg u = .next (transfer tg u) ∧ goesTo tg s (transfer tg u) ∧ sameButFlow u (transfer tg u) := by
  have hm : u.transferHasMeaning := by
    unfold State.transferHasMeaning at h ⊢; rw [h1, h3]; simpa only [h2] using h
  refine ⟨?_, goesTo_transfer tg s u h1 h2 h3, sameButFlow_transfer tg u⟩
  rcases takeTransfer_cases tg u with ⟨hr, _⟩ | ⟨_, e⟩
  · exact absurd hm ((transferRefused_iff u).1 hr)
  · exact e

/-- A taken transfer that has no meaning is refused. -/
theorem takeTransfer_refused (tg : Word) {u : State} (h : u.plat.loopEndTransfer = .refuse)
    (he : ∃ k, u.pc = (u.loop k).lb ∧ (u.loop k).lc ≠ 0) : takeTransfer tg u = .refused .loopEndTransfer := by
  rcases takeTransfer_cases tg u with ⟨_, e⟩ | ⟨hr, _⟩
  · exact e
  · obtain ⟨k, h1, h2⟩ := he
    have := (transferRefused_iff u).2 fun hm => h2 (hm h k h1)
    rw [hr] at this; cases this

/-- Going on depends on pc and the loop units alone. -/
theorem goesOn_advance (l : Word) (u s : State) (h1 : u.pc = s.pc) (h2 : u.loop0 = s.loop0)
    (h3 : u.loop1 = s.loop1) : goesOn l s (advance l u) := by
  have e (k) : u.loop k = s.loop k := by cases k <;> assumption
  have hx1 : u.loopsBack .l1 = s.loopsBack .l1 := by simp [State.loopsBack, e, h1]
  unfold goesOn
  rcases advance_cases l u with ⟨h, a, b, c⟩ | ⟨h, a, ⟨h0, b, c⟩ | ⟨h0, b, c⟩⟩ <;>
  rcases advance_cases l s with ⟨h', a', b', c'⟩ | ⟨h', a', ⟨h0', b', c'⟩ | ⟨h0', b', c'⟩⟩ <;> simp_all

/-- `sameCore` is transitive. -/
theorem sameCore_trans {s u v : State} (h : sameCore s u) (h' : sameCore u v) : sameCore s v := by
  obtain ⟨⟨a, b, c, d, e⟩, ⟨r1, r2, r3, r4, r5⟩, h1, h2, h3, ⟨f1, f2, f3, f4, f5⟩, ⟨w1, w2, w3, w4, w5⟩⟩ := h
  obtain ⟨⟨a', b', c', d', e'⟩, ⟨r1', r2', r3', r4', r5'⟩, h1', h2', h3', ⟨f1', f2', f3', f4', f5'⟩, ⟨w1', w2', w3', w4',
      w5'⟩⟩ := h'
  simp [sameCore, keepsGeneral, keepsReturns, keepsEvents, keepsWorld, *]

/-- `sameCore` under a write of SP. -/
theorem sameCore_setSp {s u : State} (h : sameCore s u) (hm : u.mode = s.mode) (a : Word) : sameCore (s.setSp a) (u.setSp a) := by
  obtain ⟨⟨a, b, c, d, e⟩, ⟨r1, r2, r3, r4, r5⟩, h1, h2, h3, ⟨f1, f2, f3, f4, f5⟩, ⟨w1, w2, w3, w4, w5⟩⟩ := h
  simp [sameCore, keepsGeneral, keepsReturns, keepsEvents, keepsWorld, *]

/-- `sameCore` under a write of IPEND. -/
theorem sameCore_setIpend {s u : State} (h : sameCore s u) (v : BitVec 16) : sameCore (s.setIpend v) (u.setIpend v) := by
  obtain ⟨h0, h00, h1, h2, h3, ⟨f1, f2, f3, f4, f5⟩, h5⟩ := h
  exact ⟨h0, h00, h1, h2, h3, ⟨f1, f2, rfl, f4, f5⟩, h5⟩

/-- An access at an address that holds a word of data memory reaches data memory. -/
theorem State.holdsWord_target {s : State} {a : Word} (h : s.holdsWord a) : accessTarget a s = .ok none := by
  obtain ⟨h1, h2, h3⟩ := h
  have f (i : Fin 4) := h3 i
  have f0 := f 0; have f1 := f 1; have f2 := f 2; have f3 := f 3
  simp at f0 f1 f2 f3
  unfold accessTarget
  rw [if_neg (by simpa using h1), h2]
  simp [f0, f1, f2, f3]

/-- A register belongs to at most one loop unit. -/
theorem ofLoop_unique {r : Reg} {j k : LoopIdx} (hj : ofLoop r j) (hk : ofLoop r k) : j = k := by
  rcases hk with rfl | rfl | rfl <;> rcases hj with h | h | h <;> cases h <;> rfl

/-- The clash of 43_loops.md R262 is what `freeOfLoopEnd` excludes. -/
theorem loopClash_iff (k : LoopIdx) (s u : State) (r : Reg) (v : Word) (hr : ofLoop r k)
   (hu : u.loop k = (s.setReg r v).loop k) : loopClash k s u = true ↔ ¬ s.freeOfLoopEnd r v := by
  have hf : s.freeOfLoopEnd r v ↔ (s.pc ≠ (s.loop k).lb ∨ ((s.loop k).lc = 0 ∧ (r = .lc k → v = 0))) := by
    constructor
    · intro h; exact h k hr
    · intro h j hj; cases ofLoop_unique hj hr; exact h
  rw [hf]
  unfold loopClash
  simp only [Bool.and_eq_true, Bool.or_eq_true, decide_eq_true_eq]
  rw [hu]
  rcases hr with rfl | rfl | rfl <;> cases k <;> simp [State.setReg, State.setLoop, State.loop] <;> tauto

/-- What a conditional jump that answers did: the transfer, or the next address. -/
theorem branch_next {taken : Bool} {off : BitVec 10} {s t : State} (h : branch taken off s = .next t) :
    (taken = true ∧ t = transfer (s.pc + offset11 off) s) ∨ (taken = false ∧ t = advance 2 s) := by
  cases taken
  · cases h; exact .inr ⟨rfl, rfl⟩
  · exact .inl ⟨rfl, takeTransfer_next h⟩

/-! ## The stack and moves -/

/-- An instruction that answers a state answers its result, or the exception it raises. -/
theorem outcome_cases {s r t} (h : outcome s r = .next t) : r = .ok t ∨ ∃ x, r = .error (.exc x) ∧
    t = takeException x s s := by
  rcases r with e | t'
  · cases e with
    | exc x => cases h; exact .inr ⟨x, rfl, rfl⟩
    | fault f => cases h
    | refusal f => cases h
  · cases h; exact .inl rfl

/-- The side effect of a push keeps the mode. -/
theorem afterPush_mode (r : Reg) (s : State) : (afterPush r s).mode = s.mode := by
  unfold afterPush; split
  · exact State.mode_clear4 s
  · rfl

/-- The side effect of a pop keeps the mode. -/
theorem afterPop_mode (r : Reg) (s : State) : (afterPop r s).mode = s.mode := by
  unfold afterPop; split
  · exact State.mode_set4 s
  · rfl

/-- The side effect of a push is a write of IPEND. -/
theorem afterPush_setIpend (r : Reg) (v : State) :
    afterPush r v = v.setIpend (if r = .reti then v.ipend &&& 0xFFEF#16 else v.ipend) := by
  unfold afterPush; split <;> rfl

/-- Reading the value to push keeps everything but the cycle counters and the count of draws. -/
theorem afterPushRead_keeps (r : Reg) (s : State) : let t := afterPushRead r s
   t.mode = s.mode ∧ t.ssp = s.ssp ∧ t.usp = s.usp ∧ t.plat = s.plat ∧ t.mem = s.mem ∧ t.memEpoch = s.memEpoch ∧
       sameCore s t ∧ (r ≠ .cycles → t.cycles = s.cycles) ∧ (r ≠ .cycles2 → t.cycles2 = s.cycles2) ∧ t.pc = s.pc ∧
           t.loop0 = s.loop0 ∧ t.loop1 = s.loop1 := by
  have h0 : sameCore s s := ⟨⟨rfl, rfl, rfl, rfl, rfl⟩, ⟨rfl, rfl, rfl, rfl, rfl⟩, rfl, rfl, rfl, ⟨rfl, rfl, rfl, rfl, rfl⟩,
      ⟨rfl, rfl, rfl, rfl, rfl⟩⟩
  intro t
  have ht : t = afterPushRead r s := rfl
  unfold afterPushRead at ht
  split at ht
  · rw [ht]; exact ⟨rfl, rfl, rfl, rfl, rfl, rfl, h0, fun _ => rfl, fun _ => rfl, rfl, rfl, rfl⟩
  · rw [ht]; cases r <;> refine ⟨rfl, rfl, rfl, rfl, rfl, rfl, h0, fun h => ?_, fun h => ?_, rfl, rfl, rfl⟩ <;>
      first | rfl | exact absurd rfl h

/-- The state after a pop step. -/
theorem popWord_state {s v t} (h : popWord s = .ok (v, t)) : t = s.setSp (s.sp + 4) := by
  unfold popWord at h
  cases hw : memRead s.sp s with
  | error e' => rw [hw] at h; cases h
  | ok t => rw [hw] at h; cases h; rfl

/-- The end of an instruction changes pc, the loop units and the count of draws alone. -/
theorem advance_flow (len : Word) (s : State) :
    ∃ p l0 l1, advance len s = { s with pc := p, loop0 := l0, loop1 := l1 } := by
  unfold advance State.loopBack State.expire; split <;> [skip; split] <;> (try split) <;> (try split) <;>
    exact ⟨_, _, _, rfl⟩

/-- With another view of a unit: pc, the loop units and the count of draws alone change. -/
theorem advanceSeeing_flow (len : Word) (k : LoopIdx) (seen : LoopUnit) (s : State) :
    ∃ p l0 l1, advanceSeeing len k seen s = { s with pc := p, loop0 := l0, loop1 := l1 } := by
  obtain ⟨p, l0, l1, h⟩ := advance_flow len (s.setLoop k seen)
  unfold advanceSeeing; rw [h]; cases k <;> exact ⟨_, _, _, rfl⟩

/-- The end of an instruction that wrote a loop register: by the platform's reading, or the open case. -/
theorem advanceWritten_cases (len : Word) (k : LoopIdx) (b a : State) :
    (loopClash k b a = false ∧ b.plat.loopWriteSeen = .fromNext ∧
      advanceWritten len k b a = advanceSeeing len k (b.loop k) a) ∨
    (loopClash k b a = false ∧ b.plat.loopWriteSeen = .atOnce ∧ advanceWritten len k b a = advance len a) ∨
      (loopClash k b a = true ∧ advanceWritten len k b a = (advanceSeeing len k a.freeUnit a).setDraws (a.draws + 3)) := by
  unfold advanceWritten; split
  · rename_i h; exact .inr (.inr ⟨h, rfl⟩)
  · rename_i h
    cases hs : b.plat.loopWriteSeen
    · exact .inl ⟨by simpa using h, rfl, rfl⟩
    · exact .inr (.inl ⟨by simpa using h, rfl, rfl⟩)

/-- The same, as what it changes: pc, the loop units and the count of draws alone. -/
theorem advanceWritten_flow (len : Word) (k : LoopIdx) (b a : State) :
    ∃ p l0 l1 n, advanceWritten len k b a = { a with pc := p, loop0 := l0, loop1 := l1, draws := n } := by
  rcases advanceWritten_cases len k b a with ⟨_, _, h⟩ | ⟨_, _, h⟩ | ⟨_, h⟩
  · obtain ⟨p, l0, l1, h'⟩ := advanceSeeing_flow len k (b.loop k) a; rw [h, h']; exact ⟨_, _, _, _, rfl⟩
  · obtain ⟨p, l0, l1, h'⟩ := advance_flow len a; rw [h, h']; exact ⟨_, _, _, _, rfl⟩
  · obtain ⟨p, l0, l1, h'⟩ := advanceSeeing_flow len k a.freeUnit a; rw [h, h']; exact ⟨_, _, _, _, rfl⟩

/-- The end of an instruction that wrote a register changes pc, the loop units and the count of draws alone. -/
theorem finishWrite_flow (r : Reg) (b a : State) :
    ∃ p l0 l1 n, finishWrite r b a = { a with pc := p, loop0 := l0, loop1 := l1, draws := n } := by
  have h : ∃ p l0 l1 n, advance 2 a = { a with pc := p, loop0 := l0, loop1 := l1, draws := n } := by
    obtain ⟨p, l0, l1, h⟩ := advance_flow 2 a; rw [h]; exact ⟨_, _, _, _, rfl⟩
  unfold finishWrite; cases r <;> first | exact h | exact advanceWritten_flow _ _ _ _

/-! What the end of an instruction that wrote a register keeps. -/

@[simp] theorem advanceWritten_d (len : Word) (k : LoopIdx) (b a : State) : (advanceWritten len k b a).d = a.d := by
  obtain ⟨_, _, _, _, h⟩ := advanceWritten_flow len k b a; rw [h]
@[simp] theorem advanceWritten_p (len : Word) (k : LoopIdx) (b a : State) : (advanceWritten len k b a).p = a.p := by
  obtain ⟨_, _, _, _, h⟩ := advanceWritten_flow len k b a; rw [h]
@[simp] theorem advanceWritten_ssp (len : Word) (k : LoopIdx) (b a : State) : (advanceWritten len k b a).ssp = a.ssp := by
  obtain ⟨_, _, _, _, h⟩ := advanceWritten_flow len k b a; rw [h]
@[simp] theorem advanceWritten_usp (len : Word) (k : LoopIdx) (b a : State) : (advanceWritten len k b a).usp = a.usp := by
  obtain ⟨_, _, _, _, h⟩ := advanceWritten_flow len k b a; rw [h]
@[simp] theorem advanceWritten_fp (len : Word) (k : LoopIdx) (b a : State) : (advanceWritten len k b a).fp = a.fp := by
  obtain ⟨_, _, _, _, h⟩ := advanceWritten_flow len k b a; rw [h]
@[simp] theorem advanceWritten_rets (len : Word) (k : LoopIdx) (b a : State) : (advanceWritten len k b a).rets = a.rets := by
  obtain ⟨_, _, _, _, h⟩ := advanceWritten_flow len k b a; rw [h]
@[simp] theorem advanceWritten_reti (len : Word) (k : LoopIdx) (b a : State) : (advanceWritten len k b a).reti = a.reti := by
  obtain ⟨_, _, _, _, h⟩ := advanceWritten_flow len k b a; rw [h]
@[simp] theorem advanceWritten_retx (len : Word) (k : LoopIdx) (b a : State) : (advanceWritten len k b a).retx = a.retx := by
  obtain ⟨_, _, _, _, h⟩ := advanceWritten_flow len k b a; rw [h]
@[simp] theorem advanceWritten_retn (len : Word) (k : LoopIdx) (b a : State) : (advanceWritten len k b a).retn = a.retn := by
  obtain ⟨_, _, _, _, h⟩ := advanceWritten_flow len k b a; rw [h]
@[simp] theorem advanceWritten_rete (len : Word) (k : LoopIdx) (b a : State) : (advanceWritten len k b a).rete = a.rete := by
  obtain ⟨_, _, _, _, h⟩ := advanceWritten_flow len k b a; rw [h]
@[simp] theorem advanceWritten_seqstat (len : Word) (k : LoopIdx) (b a : State) : (advanceWritten len k b a).seqstat = a.seqstat := by
  obtain ⟨_, _, _, _, h⟩ := advanceWritten_flow len k b a; rw [h]
@[simp] theorem advanceWritten_syscfg (len : Word) (k : LoopIdx) (b a : State) : (advanceWritten len k b a).syscfg = a.syscfg := by
  obtain ⟨_, _, _, _, h⟩ := advanceWritten_flow len k b a; rw [h]
@[simp] theorem advanceWritten_cycles (len : Word) (k : LoopIdx) (b a : State) : (advanceWritten len k b a).cycles = a.cycles := by
  obtain ⟨_, _, _, _, h⟩ := advanceWritten_flow len k b a; rw [h]
@[simp] theorem advanceWritten_cycles2 (len : Word) (k : LoopIdx) (b a : State) : (advanceWritten len k b a).cycles2 = a.cycles2 := by
  obtain ⟨_, _, _, _, h⟩ := advanceWritten_flow len k b a; rw [h]
@[simp] theorem advanceWritten_astat (len : Word) (k : LoopIdx) (b a : State) : (advanceWritten len k b a).astat = a.astat := by
  obtain ⟨_, _, _, _, h⟩ := advanceWritten_flow len k b a; rw [h]
@[simp] theorem advanceWritten_imask (len : Word) (k : LoopIdx) (b a : State) : (advanceWritten len k b a).imask = a.imask := by
  obtain ⟨_, _, _, _, h⟩ := advanceWritten_flow len k b a; rw [h]
@[simp] theorem advanceWritten_ilat (len : Word) (k : LoopIdx) (b a : State) : (advanceWritten len k b a).ilat = a.ilat := by
  obtain ⟨_, _, _, _, h⟩ := advanceWritten_flow len k b a; rw [h]
@[simp] theorem advanceWritten_ipend (len : Word) (k : LoopIdx) (b a : State) : (advanceWritten len k b a).ipend = a.ipend := by
  obtain ⟨_, _, _, _, h⟩ := advanceWritten_flow len k b a; rw [h]
@[simp] theorem advanceWritten_evt (len : Word) (k : LoopIdx) (b a : State) : (advanceWritten len k b a).evt = a.evt := by
  obtain ⟨_, _, _, _, h⟩ := advanceWritten_flow len k b a; rw [h]
@[simp] theorem advanceWritten_sic (len : Word) (k : LoopIdx) (b a : State) : (advanceWritten len k b a).sic = a.sic := by
  obtain ⟨_, _, _, _, h⟩ := advanceWritten_flow len k b a; rw [h]
@[simp] theorem advanceWritten_idle (len : Word) (k : LoopIdx) (b a : State) : (advanceWritten len k b a).idle = a.idle := by
  obtain ⟨_, _, _, _, h⟩ := advanceWritten_flow len k b a; rw [h]
@[simp] theorem advanceWritten_doubleFault (len : Word) (k : LoopIdx) (b a : State) : (advanceWritten len k b a).doubleFault = a.doubleFault := by
  obtain ⟨_, _, _, _, h⟩ := advanceWritten_flow len k b a; rw [h]
@[simp] theorem advanceWritten_mem (len : Word) (k : LoopIdx) (b a : State) : (advanceWritten len k b a).mem = a.mem := by
  obtain ⟨_, _, _, _, h⟩ := advanceWritten_flow len k b a; rw [h]
@[simp] theorem advanceWritten_memEpoch (len : Word) (k : LoopIdx) (b a : State) : (advanceWritten len k b a).memEpoch = a.memEpoch := by
  obtain ⟨_, _, _, _, h⟩ := advanceWritten_flow len k b a; rw [h]
@[simp] theorem advanceWritten_plat (len : Word) (k : LoopIdx) (b a : State) : (advanceWritten len k b a).plat = a.plat := by
  obtain ⟨_, _, _, _, h⟩ := advanceWritten_flow len k b a; rw [h]
@[simp] theorem advanceWritten_env (len : Word) (k : LoopIdx) (b a : State) : (advanceWritten len k b a).env = a.env := by
  obtain ⟨_, _, _, _, h⟩ := advanceWritten_flow len k b a; rw [h]
@[simp] theorem advanceWritten_mode (len : Word) (k : LoopIdx) (b a : State) : (advanceWritten len k b a).mode = a.mode := State.mode_congr (by simp)
@[simp] theorem finishWrite_d (r : Reg) (b a : State) : (finishWrite r b a).d = a.d := by
  obtain ⟨_, _, _, _, h⟩ := finishWrite_flow r b a; rw [h]
@[simp] theorem finishWrite_p (r : Reg) (b a : State) : (finishWrite r b a).p = a.p := by
  obtain ⟨_, _, _, _, h⟩ := finishWrite_flow r b a; rw [h]
@[simp] theorem finishWrite_ssp (r : Reg) (b a : State) : (finishWrite r b a).ssp = a.ssp := by
  obtain ⟨_, _, _, _, h⟩ := finishWrite_flow r b a; rw [h]
@[simp] theorem finishWrite_usp (r : Reg) (b a : State) : (finishWrite r b a).usp = a.usp := by
  obtain ⟨_, _, _, _, h⟩ := finishWrite_flow r b a; rw [h]
@[simp] theorem finishWrite_fp (r : Reg) (b a : State) : (finishWrite r b a).fp = a.fp := by
  obtain ⟨_, _, _, _, h⟩ := finishWrite_flow r b a; rw [h]
@[simp] theorem finishWrite_rets (r : Reg) (b a : State) : (finishWrite r b a).rets = a.rets := by
  obtain ⟨_, _, _, _, h⟩ := finishWrite_flow r b a; rw [h]
@[simp] theorem finishWrite_reti (r : Reg) (b a : State) : (finishWrite r b a).reti = a.reti := by
  obtain ⟨_, _, _, _, h⟩ := finishWrite_flow r b a; rw [h]
@[simp] theorem finishWrite_retx (r : Reg) (b a : State) : (finishWrite r b a).retx = a.retx := by
  obtain ⟨_, _, _, _, h⟩ := finishWrite_flow r b a; rw [h]
@[simp] theorem finishWrite_retn (r : Reg) (b a : State) : (finishWrite r b a).retn = a.retn := by
  obtain ⟨_, _, _, _, h⟩ := finishWrite_flow r b a; rw [h]
@[simp] theorem finishWrite_rete (r : Reg) (b a : State) : (finishWrite r b a).rete = a.rete := by
  obtain ⟨_, _, _, _, h⟩ := finishWrite_flow r b a; rw [h]
@[simp] theorem finishWrite_seqstat (r : Reg) (b a : State) : (finishWrite r b a).seqstat = a.seqstat := by
  obtain ⟨_, _, _, _, h⟩ := finishWrite_flow r b a; rw [h]
@[simp] theorem finishWrite_syscfg (r : Reg) (b a : State) : (finishWrite r b a).syscfg = a.syscfg := by
  obtain ⟨_, _, _, _, h⟩ := finishWrite_flow r b a; rw [h]
@[simp] theorem finishWrite_cycles (r : Reg) (b a : State) : (finishWrite r b a).cycles = a.cycles := by
  obtain ⟨_, _, _, _, h⟩ := finishWrite_flow r b a; rw [h]
@[simp] theorem finishWrite_cycles2 (r : Reg) (b a : State) : (finishWrite r b a).cycles2 = a.cycles2 := by
  obtain ⟨_, _, _, _, h⟩ := finishWrite_flow r b a; rw [h]
@[simp] theorem finishWrite_astat (r : Reg) (b a : State) : (finishWrite r b a).astat = a.astat := by
  obtain ⟨_, _, _, _, h⟩ := finishWrite_flow r b a; rw [h]
@[simp] theorem finishWrite_imask (r : Reg) (b a : State) : (finishWrite r b a).imask = a.imask := by
  obtain ⟨_, _, _, _, h⟩ := finishWrite_flow r b a; rw [h]
@[simp] theorem finishWrite_ilat (r : Reg) (b a : State) : (finishWrite r b a).ilat = a.ilat := by
  obtain ⟨_, _, _, _, h⟩ := finishWrite_flow r b a; rw [h]
@[simp] theorem finishWrite_ipend (r : Reg) (b a : State) : (finishWrite r b a).ipend = a.ipend := by
  obtain ⟨_, _, _, _, h⟩ := finishWrite_flow r b a; rw [h]
@[simp] theorem finishWrite_evt (r : Reg) (b a : State) : (finishWrite r b a).evt = a.evt := by
  obtain ⟨_, _, _, _, h⟩ := finishWrite_flow r b a; rw [h]
@[simp] theorem finishWrite_sic (r : Reg) (b a : State) : (finishWrite r b a).sic = a.sic := by
  obtain ⟨_, _, _, _, h⟩ := finishWrite_flow r b a; rw [h]
@[simp] theorem finishWrite_idle (r : Reg) (b a : State) : (finishWrite r b a).idle = a.idle := by
  obtain ⟨_, _, _, _, h⟩ := finishWrite_flow r b a; rw [h]
@[simp] theorem finishWrite_doubleFault (r : Reg) (b a : State) : (finishWrite r b a).doubleFault = a.doubleFault := by
  obtain ⟨_, _, _, _, h⟩ := finishWrite_flow r b a; rw [h]
@[simp] theorem finishWrite_mem (r : Reg) (b a : State) : (finishWrite r b a).mem = a.mem := by
  obtain ⟨_, _, _, _, h⟩ := finishWrite_flow r b a; rw [h]
@[simp] theorem finishWrite_memEpoch (r : Reg) (b a : State) : (finishWrite r b a).memEpoch = a.memEpoch := by
  obtain ⟨_, _, _, _, h⟩ := finishWrite_flow r b a; rw [h]
@[simp] theorem finishWrite_plat (r : Reg) (b a : State) : (finishWrite r b a).plat = a.plat := by
  obtain ⟨_, _, _, _, h⟩ := finishWrite_flow r b a; rw [h]
@[simp] theorem finishWrite_env (r : Reg) (b a : State) : (finishWrite r b a).env = a.env := by
  obtain ⟨_, _, _, _, h⟩ := finishWrite_flow r b a; rw [h]
@[simp] theorem finishWrite_mode (r : Reg) (b a : State) : (finishWrite r b a).mode = a.mode := State.mode_congr (by simp)

/-- Whatever a unit sees, the instruction ends as `goesOnOpen` says. -/
theorem goesOnOpen_advanceSeeing (len : Word) (k : LoopIdx) (seen : LoopUnit) (u : State) :
    goesOnOpen len k u (advanceSeeing len k seen u) := by
  refine ⟨seen, by simp [advanceSeeing], by simp [advanceSeeing], by simp [advanceSeeing], ?_, fun j hj => by
    simp [advanceSeeing, hj]⟩
  simp only [advanceSeeing, State.setLoop_loop, if_true]
  split
  · exact .inl rfl
  · exact .inr rfl

/-- `NextPC` keeps LT and LB. -/
theorem advance_lt_lb (len : Word) (k : LoopIdx) (s : State) :
    ((advance len s).loop k).lt = (s.loop k).lt ∧ ((advance len s).loop k).lb = (s.loop k).lb := by
  unfold advance State.loopBack State.expire; split <;> [skip; split] <;> (try split) <;> (try split) <;>
    cases k <;> exact ⟨rfl, rfl⟩

/-- A unit away from its own end, or with LC 0, is kept by `NextPC`. -/
theorem advance_inert (len : Word) (k : LoopIdx) (s : State) (h : s.pc ≠ (s.loop k).lb ∨ (s.loop k).lc = 0) :
    (advance len s).loop k = s.loop k := by
  cases k
  · have h' : ¬ (s.pc = s.loop0.lb ∧ 2 ≤ s.loop0.lc.toNat) := by
      rintro ⟨a, b⟩; rcases h with h | h
      · exact h a
      · change s.loop0.lc = 0 at h; rw [h] at b; exact absurd b (by decide)
    have h'' : (if s.pc = s.loop0.lb ∧ s.loop0.lc = 1 then 0 else s.loop0.lc) = s.loop0.lc := by
      split
      · rename_i c; rcases h with h | h
        · exact absurd c.1 h
        · exact h.symm
      · rfl
    rcases advance_cases len s with ⟨_, _, _, c⟩ | ⟨_, _, ⟨h0, _⟩ | ⟨_, _, c⟩⟩
    · exact c
    · exact absurd h0 h'
    · show (advance len s).loop0 = s.loop0; rw [c, h'']
  · have h' : ¬ (s.pc = s.loop1.lb ∧ 2 ≤ s.loop1.lc.toNat) := by
      rintro ⟨a, b⟩; rcases h with h | h
      · exact h a
      · change s.loop1.lc = 0 at h; rw [h] at b; exact absurd b (by decide)
    have h'' : (if s.pc = s.loop1.lb ∧ s.loop1.lc = 1 then 0 else s.loop1.lc) = s.loop1.lc := by
      split
      · rename_i c; rcases h with h | h
        · exact absurd c.1 h
        · exact h.symm
      · rfl
    rcases advance_cases len s with ⟨h0, _⟩ | ⟨_, c, _⟩
    · exact absurd h0 h'
    · show (advance len s).loop1 = s.loop1; rw [c, h'']

/-- Where a written unit sees its registers as they were and takes no part, the step goes on as before the write and the unit
stands as written. -/
theorem advanceSeeing_inert (len : Word) (k : LoopIdx) (s u : State) (hp : u.pc = s.pc)
    (hl : ∀ j, j ≠ k → u.loop j = s.loop j) (h : s.pc ≠ (s.loop k).lb ∨ (s.loop k).lc = 0) :
    (advanceSeeing len k (s.loop k) u).pc = (advance len s).pc ∧ (advanceSeeing len k (s.loop k) u).loop k = u.loop k ∧
      ∀ j, j ≠ k → (advanceSeeing len k (s.loop k) u).loop j = (advance len s).loop j := by
  have e : ∀ j, (u.setLoop k (s.loop k)).loop j = s.loop j := fun j => by
    rw [State.setLoop_loop]; split
    · rename_i h; rw [h]
    · rename_i h; exact hl j h
  obtain ⟨a, b, c⟩ : goesOn len s (advance len (u.setLoop k (s.loop k))) :=
    goesOn_advance len _ s (by simp [hp]) (e .l0) (e .l1)
  have hj (j) : (advance len (u.setLoop k (s.loop k))).loop j = (advance len s).loop j := by cases j <;> assumption
  have hk := hj k
  rw [advance_inert len k s h] at hk
  refine ⟨by simp [advanceSeeing, a], ?_, fun j h => by simp [advanceSeeing, h, hj]⟩
  simp only [advanceSeeing, State.setLoop_loop, if_true, hk]

/-- `NextPC` itself ends as `goesOnOpen` says, the unit seeing its own registers. -/
theorem goesOnOpen_advance (len : Word) (k : LoopIdx) (u : State) : goesOnOpen len k u (advance len u) := by
  have e : u.setLoop k (u.loop k) = u := by cases k <;> rfl
  have h := advance_lt_lb len k u
  exact ⟨u.loop k, by rw [e], h.1, h.2, .inr (by rw [e]), fun j _ => by rw [e]⟩

/-- The end of an instruction that wrote registers of unit `k`, in every case. -/
theorem goesOnOpen_advanceWritten (len : Word) (k : LoopIdx) (b u : State) :
    goesOnOpen len k u (advanceWritten len k b u) := by
  rcases advanceWritten_cases len k b u with ⟨_, _, h⟩ | ⟨_, _, h⟩ | ⟨_, h⟩ <;> rw [h]
  · exact goesOnOpen_advanceSeeing len k (b.loop k) u
  · exact goesOnOpen_advance len k u
  · obtain ⟨x, h1, h2, h3, h4, h5⟩ := goesOnOpen_advanceSeeing len k u.freeUnit u
    exact ⟨x, h1, by cases k <;> exact h2, by cases k <;> exact h3, by cases k <;> exact h4,
      fun j hj => by have := h5 j hj; cases j <;> exact this⟩

/-- No clash means that the unit takes no part. -/
theorem loopClash_false {k : LoopIdx} {b a : State} (h : loopClash k b a = false) :
    b.pc ≠ (b.loop k).lb ∨ (b.loop k).lc = 0 := by
  unfold loopClash at h
  by_contra hc
  rw [not_or, not_not] at hc
  simp [hc.1] at h
  exact hc.2 h.1

/-- The end of an instruction that wrote register `r`, in every case. -/
theorem goesOnAfterWrite_finishWrite (r : Reg) (v : Word) (s u : State) (hp : u.pc = s.pc)
    (hl : ∀ k, u.loop k = (s.setReg r v).loop k) : goesOnAfterWrite r v s u (finishWrite r s u) := by
  have hw {k} (hk : ofLoop r k) : finishWrite r s u = advanceWritten 2 k s u := by rcases hk with rfl | rfl | rfl <;> rfl
  have ho {j} (hj : ¬ ofLoop r j) : u.loop j = s.loop j := by
    rw [hl]
    cases r <;> cases j <;> first
      | rfl
      | (simp [State.setReg, State.loop]; done)
      | (rename_i k; cases k <;> first | rfl | exact absurd (.inl rfl) hj | exact absurd (.inr (.inl rfl)) hj |
          exact absurd (.inr (.inr rfl)) hj)
  have hc (hf : s.freeOfLoopEnd r v) {k} (hk : ofLoop r k) : loopClash k s u = false := by
    cases h : loopClash k s u
    · rfl
    · exact absurd hf ((loopClash_iff k s u r v hk (hl k)).1 h)
  have hn (h0 : ¬ ∃ k, ofLoop r k) : finishWrite r s u = advance 2 u := by
    cases r <;> first | rfl | exact absurd ⟨_, .inl rfl⟩ h0 | exact absurd ⟨_, .inr (.inl rfl)⟩ h0 |
      exact absurd ⟨_, .inr (.inr rfl)⟩ h0
  refine ⟨fun hf hs => ?_, fun hf hs => ?_, fun k hk => by rw [hw hk]; exact goesOnOpen_advanceWritten 2 k s u⟩
  · by_cases hr : ∃ k, ofLoop r k
    · obtain ⟨k, hk⟩ := hr
      have hj {j} (hj : j ≠ k) : ¬ ofLoop r j := fun h => hj (ofLoop_unique h hk)
      obtain ⟨a, b, c⟩ := advanceSeeing_inert 2 k s u hp (fun j h => ho (hj h)) (loopClash_false (hc hf hk))
      rw [hw hk]
      unfold advanceWritten; rw [hc hf hk, hs]
      refine ⟨a, fun j => ⟨fun h => ?_, fun h => c j fun e => h (e ▸ hk)⟩⟩
      cases ofLoop_unique h hk; exact b
    · rw [hn hr]
      have h0 (j) : ¬ ofLoop r j := fun h => hr ⟨j, h⟩
      obtain ⟨a, b, c⟩ := goesOn_advance 2 u s hp (ho (h0 .l0)) (ho (h0 .l1))
      exact ⟨a, fun k => ⟨fun h => absurd h (h0 k), fun _ => by cases k <;> assumption⟩⟩
  · have e : finishWrite r s u = advance 2 u := by
      by_cases hr : ∃ k, ofLoop r k
      · obtain ⟨k, hk⟩ := hr
        rw [hw hk]; unfold advanceWritten; rw [hc hf hk, hs]; rfl
      · exact hn hr
    rw [e]
    exact ⟨rfl, rfl, rfl⟩

/-- How an instruction that wrote a register ended depends on pc and the loop registers it left. -/
theorem goesOnAfterWrite_congr {r v s u u' t} (h : goesOnAfterWrite r v s u' t) (h1 : u'.pc = u.pc) (h2 : u'.loop0 = u.loop0)
    (h3 : u'.loop1 = u.loop1) : goesOnAfterWrite r v s u t := by
  have hl : ∀ j, u'.loop j = u.loop j := fun j => by cases j <;> assumption
  refine ⟨fun hf hs => ?_, fun hf hs => ?_, fun k hk => ?_⟩
  · obtain ⟨a, b⟩ := h.1 hf hs
    exact ⟨a, fun k => ⟨fun hk => ((b k).1 hk).trans (hl k), (b k).2⟩⟩
  · obtain ⟨a, b, c⟩ := h.2.1 hf hs
    obtain ⟨a', b', c'⟩ : goesOn 2 u (advance 2 u') := goesOn_advance 2 u' u h1 h2 h3
    exact ⟨a.trans a', b.trans b', c.trans c'⟩
  · obtain ⟨x, y1, y2, y3, y4, y5⟩ := h.2.2 k hk
    obtain ⟨a, b, c⟩ : goesOn 2 (u.setLoop k x) (advance 2 (u'.setLoop k x)) :=
      goesOn_advance 2 _ _ (by simp [h1]) (by cases k <;> first | rfl | exact h2) (by cases k <;> first | rfl | exact h3)
    have hl' : ∀ j, (advance 2 (u'.setLoop k x)).loop j = (advance 2 (u.setLoop k x)).loop j := fun j => by cases j <;> assumption
    exact ⟨x, y1.trans a, by rw [y2, hl], by rw [y3, hl], by rw [← hl, ← hl']; exact y4, fun j hj => by rw [← hl']; exact y5 j hj⟩

/-- What a push that answers did. -/
theorem runPush_ok {r s t} (h : runPush r s = .ok t) : ∃ u, pushWord (pushValue r s) (afterPushRead r s) = .ok u ∧
    t = advance 2 (afterPush r u) := by
  unfold runPush at h
  cases hc : checkRegister r s with
  | error e => rw [hc] at h; cases h
  | ok _ =>
    rw [hc] at h; simp only [bind, Except.bind] at h
    cases hp : pushWord (pushValue r s) (afterPushRead r s) with
    | error e => rw [hp] at h; cases h
    | ok u => rw [hp] at h; cases h; exact ⟨u, rfl, rfl⟩

/-- Two writes of a register agree on the loop units if the states before them do. -/
theorem loop_setReg_congr (r : Reg) (v : Word) {u s : State} (h : ∀ k, u.loop k = s.loop k) (k : LoopIdx) :
    (u.setReg r v).loop k = (s.setReg r v).loop k := by
  have h0 := h .l0; have h1 := h .l1
  simp only [State.loop] at h0 h1
  cases r with
  | g g => cases k <;> simp [State.setReg, State.loop, h0, h1]
  | lc j => cases j <;> cases k <;> simp [State.setReg, State.setLoop, State.loop, h0, h1]
  | lt j => cases j <;> cases k <;> simp [State.setReg, State.setLoop, State.loop, h0, h1]
  | lb j => cases j <;> cases k <;> simp [State.setReg, State.setLoop, State.loop, h0, h1]
  | _ => cases k <;> simp [State.setReg, State.loop, h0, h1]

/-- The loop units after a pop wrote its register. -/
theorem loop_setSp_setReg (r : Reg) (v : Word) (s : State) (k : LoopIdx) :
    ((s.setSp (s.sp + 4)).setReg r v).loop k = (s.setReg r v).loop k :=
  loop_setReg_congr r v (fun j => by cases j <;> simp [State.loop]) k

/-- The loop units after a move wrote its register. -/
theorem loop_afterRead_setReg (d r : Reg) (v : Word) (s : State) (k : LoopIdx) :
    ((s.afterRead r).setReg d v).loop k = (s.setReg d v).loop k :=
  loop_setReg_congr d v (fun j => by cases j <;> simp [State.loop]) k

/-- The check of R262 passes exactly where the write has a meaning, and else refuses. -/
theorem checkLoopWrite_ok {r : Reg} {v : Word} {s u : State} (hl : ∀ k, u.loop k = (s.setReg r v).loop k) :
    checkLoopWrite r s u = .ok () ↔ s.writeHasMeaning r v := by
  have key : ∀ k, ofLoop r k → (loopWriteRefused k s u = false ↔ s.writeHasMeaning r v) := fun k hk => by
    have := loopClash_iff k s u r v hk (hl k)
    unfold loopWriteRefused State.writeHasMeaning
    cases hp : decide (s.plat.loopEndWrite = .refuse) <;> cases hc : loopClash k s u <;> simp_all
  have none_ : (∀ k, ¬ ofLoop r k) → s.writeHasMeaning r v := fun h _ k hk => absurd hk (h k)
  cases r with
  | lc k => rw [← key k (.inl rfl)]; unfold checkLoopWrite; cases h : loopWriteRefused k s u <;> simp [h]
  | lt k => rw [← key k (.inr (.inl rfl))]; unfold checkLoopWrite; cases h : loopWriteRefused k s u <;> simp [h]
  | lb k => rw [← key k (.inr (.inr rfl))]; unfold checkLoopWrite; cases h : loopWriteRefused k s u <;> simp [h]
  | _ => exact ⟨fun _ => none_ (fun k => by simp [ofLoop]), fun _ => rfl⟩

/-- The check of R262 passes, or refuses with its own name. -/
theorem checkLoopWrite_cases (r : Reg) (s u : State) :
    checkLoopWrite r s u = .ok () ∨ checkLoopWrite r s u = .error (.refusal .loopEndWrite) := by
  unfold checkLoopWrite; cases r <;> simp only <;> (try split) <;> simp

/-- What a pop that answers did. -/
theorem runPop_ok {r s t} (h : runPop r s = .ok t) : popAdmitted r = true ∧ s.admitsWrite r = true ∧ ¬(s.mode = .user ∧ supervisorReg r = true) ∧
    ∃ v, popWord s = .ok (v, s.setSp (s.sp + 4)) ∧ checkSyscfg r v = .ok () ∧ s.writeHasMeaning r v ∧
        t = finishWrite r s (afterPop r ((s.setSp (s.sp + 4)).setReg r v)) := by
  unfold runPop at h
  split at h
  · rename_i hpa
    cases hc : checkRegister r s with
    | error e => rw [hc] at h; cases h
    | ok _ =>
      rw [hc] at h; simp only [bind, Except.bind] at h
      cases hp : popWord s with
      | error e => rw [hp] at h; cases h
      | ok vu =>
        obtain ⟨v, u⟩ := vu
        rw [hp] at h; simp only at h
        cases hk : checkSyscfg r v with
        | error e => rw [hk] at h; cases h
        | ok _ =>
          rw [hk] at h; simp only at h
          have := popWord_state hp; subst this
          cases hw : checkLoopWrite r s ((s.setSp (s.sp + 4)).setReg r v) with
          | error e => rw [hw] at h; cases h
          | ok _ =>
            rw [hw] at h; cases h
            rw [Bool.and_eq_true] at hpa
            refine ⟨hpa.1, hpa.2, ?_, v, rfl, hk, (checkLoopWrite_ok (loop_setSp_setReg r v s)).1 hw, rfl⟩
            intro hh; unfold checkRegister at hc; rw [if_pos hh] at hc; cases hc
  · cases h

/-- What a move that answers did. -/
theorem runMove_ok {r d s t} (h : runMove d r s = .ok t) : ¬(s.mode = .user ∧ supervisorReg r = true) ∧ ¬(s.mode = .user ∧
    supervisorReg d = true) ∧ s.writeHasMeaning d (s.reg r) ∧ t = finishWrite d s ((s.afterRead r).setReg d (s.reg r)) := by
  unfold runMove at h
  split at h
  · cases hc : checkRegister d s with
    | error e => rw [hc] at h; cases h
    | ok _ =>
      rw [hc] at h; simp only [bind, Except.bind] at h
      cases hc2 : checkRegister r s with
      | error e => rw [hc2] at h; cases h
      | ok _ =>
        rw [hc2] at h; simp only at h
        cases hk : checkSyscfg d (s.reg r) with
        | error e => rw [hk] at h; cases h
        | ok _ =>
          rw [hk] at h; simp only at h
          cases hw : checkLoopWrite d s ((s.afterRead r).setReg d (s.reg r)) with
          | error e => rw [hw] at h; cases h
          | ok _ =>
            rw [hw] at h; cases h; refine ⟨?_, ?_, (checkLoopWrite_ok (loop_afterRead_setReg d r _ s)).1 hw, rfl⟩
            · intro hh; unfold checkRegister at hc2; rw [if_pos hh] at hc2; cases hc2
            · intro hh; unfold checkRegister at hc; rw [if_pos hh] at hc; cases hc
  · cases h

/-- A pop that passes every check answers its result. -/
theorem runPop_run {r s v} (hp : popAdmitted r = true) (ha : s.admitsWrite r = true)
    (hr : ¬(s.mode = .user ∧ supervisorReg r = true)) (hv : popWord s = .ok (v, s.setSp (s.sp + 4)))
    (hk : checkSyscfg r v = .ok ()) (hw : s.writeHasMeaning r v) :
    runPop r s = .ok (finishWrite r s (afterPop r ((s.setSp (s.sp + 4)).setReg r v))) := by
  have hl := (checkLoopWrite_ok (loop_setSp_setReg r v s)).2 hw
  unfold runPop
  rw [if_pos (by simp [hp, ha]), show checkRegister r s = .ok () from if_neg hr]
  simp only [bind, Except.bind, hv, hk, hl]
  rfl

/-- A move that passes every check answers its result. -/
theorem runMove_run {d r s} (hp : moveAdmitted d r = true) (ha : s.admitsWrite d = true)
    (hr : ¬(s.mode = .user ∧ (supervisorReg d = true ∨ supervisorReg r = true))) (hk : checkSyscfg d (s.reg r) = .ok ())
    (hw : s.writeHasMeaning d (s.reg r)) :
    runMove d r s = .ok (finishWrite d s ((s.afterRead r).setReg d (s.reg r))) := by
  have hl := (checkLoopWrite_ok (loop_afterRead_setReg d r (s.reg r) s)).2 hw
  unfold runMove
  rw [if_pos (by simp [hp, ha]), show checkRegister d s = .ok () from if_neg (fun h => hr ⟨h.1, .inl h.2⟩),
    show checkRegister r s = .ok () from if_neg (fun h => hr ⟨h.1, .inr h.2⟩)]
  simp only [bind, Except.bind, hk, hl]
  rfl

/-- What an LSETUP that answers did. -/
theorem execLsetup_next {k soff p eoff s t} (h : execLsetup k soff p eoff s = .next t) :
    lsetupAdmitted soff eoff = true ∧ loopWriteRefused k s (loopSetup k soff p eoff s) = false ∧
      t = advanceWritten 4 k s (loopSetup k soff p eoff s) := by
  unfold execLsetup at h
  split at h
  · rename_i ha
    split at h
    · cases h
    · rename_i hw
      cases h
      exact ⟨ha, by simpa using hw, rfl⟩
  · cases h

end Sys2Proof.Machine
end

