-- ==== Sys2Proof/Laws/Controller.lean ====
section
/-! SUPPORT. What the operations of Controller.lean leave alone: one lemma per field; and how a step prepares. -/

namespace Sys2Proof.Machine

@[simp] theorem latchHwError_pc (h : Option HwError) (s : State) : (latchHwError h s).pc = s.pc := by cases h <;> rfl
@[simp] theorem latchHwError_d (h : Option HwError) (s : State) : (latchHwError h s).d = s.d := by cases h <;> rfl
@[simp] theorem latchHwError_p (h : Option HwError) (s : State) : (latchHwError h s).p = s.p := by cases h <;> rfl
@[simp] theorem latchHwError_ssp (h : Option HwError) (s : State) : (latchHwError h s).ssp = s.ssp := by cases h <;> rfl
@[simp] theorem latchHwError_usp (h : Option HwError) (s : State) : (latchHwError h s).usp = s.usp := by cases h <;> rfl
@[simp] theorem latchHwError_fp (h : Option HwError) (s : State) : (latchHwError h s).fp = s.fp := by cases h <;> rfl
@[simp] theorem latchHwError_rets (h : Option HwError) (s : State) : (latchHwError h s).rets = s.rets := by cases h <;> rfl
@[simp] theorem latchHwError_reti (h : Option HwError) (s : State) : (latchHwError h s).reti = s.reti := by cases h <;> rfl
@[simp] theorem latchHwError_retx (h : Option HwError) (s : State) : (latchHwError h s).retx = s.retx := by cases h <;> rfl
@[simp] theorem latchHwError_retn (h : Option HwError) (s : State) : (latchHwError h s).retn = s.retn := by cases h <;> rfl
@[simp] theorem latchHwError_rete (h : Option HwError) (s : State) : (latchHwError h s).rete = s.rete := by cases h <;> rfl
@[simp] theorem latchHwError_loop0 (h : Option HwError) (s : State) : (latchHwError h s).loop0 = s.loop0 := by cases h <;> rfl
@[simp] theorem latchHwError_loop1 (h : Option HwError) (s : State) : (latchHwError h s).loop1 = s.loop1 := by cases h <;> rfl
@[simp] theorem latchHwError_syscfg (h : Option HwError) (s : State) : (latchHwError h s).syscfg = s.syscfg := by cases h <;> rfl
@[simp] theorem latchHwError_cycles (h : Option HwError) (s : State) : (latchHwError h s).cycles = s.cycles := by cases h <;> rfl
@[simp] theorem latchHwError_cycles2 (h : Option HwError) (s : State) : (latchHwError h s).cycles2 = s.cycles2 := by cases h <;> rfl
@[simp] theorem latchHwError_astat (h : Option HwError) (s : State) : (latchHwError h s).astat = s.astat := by cases h <;> rfl
@[simp] theorem latchHwError_imask (h : Option HwError) (s : State) : (latchHwError h s).imask = s.imask := by cases h <;> rfl
@[simp] theorem latchHwError_ipend (h : Option HwError) (s : State) : (latchHwError h s).ipend = s.ipend := by cases h <;> rfl
@[simp] theorem latchHwError_evt (h : Option HwError) (s : State) : (latchHwError h s).evt = s.evt := by cases h <;> rfl
@[simp] theorem latchHwError_sic (h : Option HwError) (s : State) : (latchHwError h s).sic = s.sic := by cases h <;> rfl
@[simp] theorem latchHwError_idle (h : Option HwError) (s : State) : (latchHwError h s).idle = s.idle := by cases h <;> rfl
@[simp] theorem latchHwError_doubleFault (h : Option HwError) (s : State) : (latchHwError h s).doubleFault = s.doubleFault := by cases h <;> rfl
@[simp] theorem latchHwError_mem (h : Option HwError) (s : State) : (latchHwError h s).mem = s.mem := by cases h <;> rfl
@[simp] theorem latchHwError_memEpoch (h : Option HwError) (s : State) : (latchHwError h s).memEpoch = s.memEpoch := by cases h <;> rfl
@[simp] theorem latchHwError_plat (h : Option HwError) (s : State) : (latchHwError h s).plat = s.plat := by cases h <;> rfl
@[simp] theorem latchHwError_env (h : Option HwError) (s : State) : (latchHwError h s).env = s.env := by cases h <;> rfl
@[simp] theorem latchHwError_draws (h : Option HwError) (s : State) : (latchHwError h s).draws = s.draws := by cases h <;> rfl
@[simp] theorem latchHwError_mode (h : Option HwError) (s : State) : (latchHwError h s).mode = s.mode := State.mode_congr (by simp)

@[simp] theorem latchWhen_pc (b : Bool) (n : Nat) (s : State) : (latchWhen b n s).pc = s.pc := by cases b <;> rfl
@[simp] theorem latchWhen_d (b : Bool) (n : Nat) (s : State) : (latchWhen b n s).d = s.d := by cases b <;> rfl
@[simp] theorem latchWhen_p (b : Bool) (n : Nat) (s : State) : (latchWhen b n s).p = s.p := by cases b <;> rfl
@[simp] theorem latchWhen_ssp (b : Bool) (n : Nat) (s : State) : (latchWhen b n s).ssp = s.ssp := by cases b <;> rfl
@[simp] theorem latchWhen_usp (b : Bool) (n : Nat) (s : State) : (latchWhen b n s).usp = s.usp := by cases b <;> rfl
@[simp] theorem latchWhen_fp (b : Bool) (n : Nat) (s : State) : (latchWhen b n s).fp = s.fp := by cases b <;> rfl
@[simp] theorem latchWhen_rets (b : Bool) (n : Nat) (s : State) : (latchWhen b n s).rets = s.rets := by cases b <;> rfl
@[simp] theorem latchWhen_reti (b : Bool) (n : Nat) (s : State) : (latchWhen b n s).reti = s.reti := by cases b <;> rfl
@[simp] theorem latchWhen_retx (b : Bool) (n : Nat) (s : State) : (latchWhen b n s).retx = s.retx := by cases b <;> rfl
@[simp] theorem latchWhen_retn (b : Bool) (n : Nat) (s : State) : (latchWhen b n s).retn = s.retn := by cases b <;> rfl
@[simp] theorem latchWhen_rete (b : Bool) (n : Nat) (s : State) : (latchWhen b n s).rete = s.rete := by cases b <;> rfl
@[simp] theorem latchWhen_loop0 (b : Bool) (n : Nat) (s : State) : (latchWhen b n s).loop0 = s.loop0 := by cases b <;> rfl
@[simp] theorem latchWhen_loop1 (b : Bool) (n : Nat) (s : State) : (latchWhen b n s).loop1 = s.loop1 := by cases b <;> rfl
@[simp] theorem latchWhen_seqstat (b : Bool) (n : Nat) (s : State) : (latchWhen b n s).seqstat = s.seqstat := by cases b <;> rfl
@[simp] theorem latchWhen_syscfg (b : Bool) (n : Nat) (s : State) : (latchWhen b n s).syscfg = s.syscfg := by cases b <;> rfl
@[simp] theorem latchWhen_cycles (b : Bool) (n : Nat) (s : State) : (latchWhen b n s).cycles = s.cycles := by cases b <;> rfl
@[simp] theorem latchWhen_cycles2 (b : Bool) (n : Nat) (s : State) : (latchWhen b n s).cycles2 = s.cycles2 := by cases b <;> rfl
@[simp] theorem latchWhen_astat (b : Bool) (n : Nat) (s : State) : (latchWhen b n s).astat = s.astat := by cases b <;> rfl
@[simp] theorem latchWhen_imask (b : Bool) (n : Nat) (s : State) : (latchWhen b n s).imask = s.imask := by cases b <;> rfl
@[simp] theorem latchWhen_ipend (b : Bool) (n : Nat) (s : State) : (latchWhen b n s).ipend = s.ipend := by cases b <;> rfl
@[simp] theorem latchWhen_evt (b : Bool) (n : Nat) (s : State) : (latchWhen b n s).evt = s.evt := by cases b <;> rfl
@[simp] theorem latchWhen_sic (b : Bool) (n : Nat) (s : State) : (latchWhen b n s).sic = s.sic := by cases b <;> rfl
@[simp] theorem latchWhen_idle (b : Bool) (n : Nat) (s : State) : (latchWhen b n s).idle = s.idle := by cases b <;> rfl
@[simp] theorem latchWhen_doubleFault (b : Bool) (n : Nat) (s : State) : (latchWhen b n s).doubleFault = s.doubleFault := by cases b <;> rfl
@[simp] theorem latchWhen_mem (b : Bool) (n : Nat) (s : State) : (latchWhen b n s).mem = s.mem := by cases b <;> rfl
@[simp] theorem latchWhen_memEpoch (b : Bool) (n : Nat) (s : State) : (latchWhen b n s).memEpoch = s.memEpoch := by cases b <;> rfl
@[simp] theorem latchWhen_plat (b : Bool) (n : Nat) (s : State) : (latchWhen b n s).plat = s.plat := by cases b <;> rfl
@[simp] theorem latchWhen_env (b : Bool) (n : Nat) (s : State) : (latchWhen b n s).env = s.env := by cases b <;> rfl
@[simp] theorem latchWhen_draws (b : Bool) (n : Nat) (s : State) : (latchWhen b n s).draws = s.draws := by cases b <;> rfl
@[simp] theorem latchWhen_mode (b : Bool) (n : Nat) (s : State) : (latchWhen b n s).mode = s.mode := State.mode_congr (by simp)

@[simp] theorem latchTrst_pc (b : Bool) (s : State) : (latchTrst b s).pc = s.pc := by cases b <;> rfl
@[simp] theorem latchTrst_d (b : Bool) (s : State) : (latchTrst b s).d = s.d := by cases b <;> rfl
@[simp] theorem latchTrst_p (b : Bool) (s : State) : (latchTrst b s).p = s.p := by cases b <;> rfl
@[simp] theorem latchTrst_ssp (b : Bool) (s : State) : (latchTrst b s).ssp = s.ssp := by cases b <;> rfl
@[simp] theorem latchTrst_usp (b : Bool) (s : State) : (latchTrst b s).usp = s.usp := by cases b <;> rfl
@[simp] theorem latchTrst_fp (b : Bool) (s : State) : (latchTrst b s).fp = s.fp := by cases b <;> rfl
@[simp] theorem latchTrst_rets (b : Bool) (s : State) : (latchTrst b s).rets = s.rets := by cases b <;> rfl
@[simp] theorem latchTrst_reti (b : Bool) (s : State) : (latchTrst b s).reti = s.reti := by cases b <;> rfl
@[simp] theorem latchTrst_retx (b : Bool) (s : State) : (latchTrst b s).retx = s.retx := by cases b <;> rfl
@[simp] theorem latchTrst_retn (b : Bool) (s : State) : (latchTrst b s).retn = s.retn := by cases b <;> rfl
@[simp] theorem latchTrst_rete (b : Bool) (s : State) : (latchTrst b s).rete = s.rete := by cases b <;> rfl
@[simp] theorem latchTrst_loop0 (b : Bool) (s : State) : (latchTrst b s).loop0 = s.loop0 := by cases b <;> rfl
@[simp] theorem latchTrst_loop1 (b : Bool) (s : State) : (latchTrst b s).loop1 = s.loop1 := by cases b <;> rfl
@[simp] theorem latchTrst_seqstat (b : Bool) (s : State) : (latchTrst b s).seqstat = s.seqstat := by cases b <;> rfl
@[simp] theorem latchTrst_syscfg (b : Bool) (s : State) : (latchTrst b s).syscfg = s.syscfg := by cases b <;> rfl
@[simp] theorem latchTrst_cycles (b : Bool) (s : State) : (latchTrst b s).cycles = s.cycles := by cases b <;> rfl
@[simp] theorem latchTrst_cycles2 (b : Bool) (s : State) : (latchTrst b s).cycles2 = s.cycles2 := by cases b <;> rfl
@[simp] theorem latchTrst_astat (b : Bool) (s : State) : (latchTrst b s).astat = s.astat := by cases b <;> rfl
@[simp] theorem latchTrst_imask (b : Bool) (s : State) : (latchTrst b s).imask = s.imask := by cases b <;> rfl
@[simp] theorem latchTrst_ipend (b : Bool) (s : State) : (latchTrst b s).ipend = s.ipend := by cases b <;> rfl
@[simp] theorem latchTrst_evt (b : Bool) (s : State) : (latchTrst b s).evt = s.evt := by cases b <;> rfl
@[simp] theorem latchTrst_sic (b : Bool) (s : State) : (latchTrst b s).sic = s.sic := by cases b <;> rfl
@[simp] theorem latchTrst_idle (b : Bool) (s : State) : (latchTrst b s).idle = s.idle := by cases b <;> rfl
@[simp] theorem latchTrst_doubleFault (b : Bool) (s : State) : (latchTrst b s).doubleFault = s.doubleFault := by cases b <;> rfl
@[simp] theorem latchTrst_mem (b : Bool) (s : State) : (latchTrst b s).mem = s.mem := by cases b <;> rfl
@[simp] theorem latchTrst_memEpoch (b : Bool) (s : State) : (latchTrst b s).memEpoch = s.memEpoch := by cases b <;> rfl
@[simp] theorem latchTrst_plat (b : Bool) (s : State) : (latchTrst b s).plat = s.plat := by cases b <;> rfl
@[simp] theorem latchTrst_env (b : Bool) (s : State) : (latchTrst b s).env = s.env := by cases b <;> rfl
@[simp] theorem latchTrst_draws (b : Bool) (s : State) : (latchTrst b s).draws = s.draws := by cases b <;> rfl
@[simp] theorem latchTrst_mode (b : Bool) (s : State) : (latchTrst b s).mode = s.mode := State.mode_congr (by simp)

@[simp] theorem latchCore_pc (e : EnvInput) (s : State) : (latchCore e s).pc = s.pc := by simp [latchCore]
@[simp] theorem latchCore_d (e : EnvInput) (s : State) : (latchCore e s).d = s.d := by simp [latchCore]
@[simp] theorem latchCore_p (e : EnvInput) (s : State) : (latchCore e s).p = s.p := by simp [latchCore]
@[simp] theorem latchCore_ssp (e : EnvInput) (s : State) : (latchCore e s).ssp = s.ssp := by simp [latchCore]
@[simp] theorem latchCore_usp (e : EnvInput) (s : State) : (latchCore e s).usp = s.usp := by simp [latchCore]
@[simp] theorem latchCore_fp (e : EnvInput) (s : State) : (latchCore e s).fp = s.fp := by simp [latchCore]
@[simp] theorem latchCore_rets (e : EnvInput) (s : State) : (latchCore e s).rets = s.rets := by simp [latchCore]
@[simp] theorem latchCore_reti (e : EnvInput) (s : State) : (latchCore e s).reti = s.reti := by simp [latchCore]
@[simp] theorem latchCore_retx (e : EnvInput) (s : State) : (latchCore e s).retx = s.retx := by simp [latchCore]
@[simp] theorem latchCore_retn (e : EnvInput) (s : State) : (latchCore e s).retn = s.retn := by simp [latchCore]
@[simp] theorem latchCore_rete (e : EnvInput) (s : State) : (latchCore e s).rete = s.rete := by simp [latchCore]
@[simp] theorem latchCore_loop0 (e : EnvInput) (s : State) : (latchCore e s).loop0 = s.loop0 := by simp [latchCore]
@[simp] theorem latchCore_loop1 (e : EnvInput) (s : State) : (latchCore e s).loop1 = s.loop1 := by simp [latchCore]
@[simp] theorem latchCore_syscfg (e : EnvInput) (s : State) : (latchCore e s).syscfg = s.syscfg := by simp [latchCore]
@[simp] theorem latchCore_cycles (e : EnvInput) (s : State) : (latchCore e s).cycles = s.cycles := by simp [latchCore]
@[simp] theorem latchCore_cycles2 (e : EnvInput) (s : State) : (latchCore e s).cycles2 = s.cycles2 := by simp [latchCore]
@[simp] theorem latchCore_astat (e : EnvInput) (s : State) : (latchCore e s).astat = s.astat := by simp [latchCore]
@[simp] theorem latchCore_imask (e : EnvInput) (s : State) : (latchCore e s).imask = s.imask := by simp [latchCore]
@[simp] theorem latchCore_ipend (e : EnvInput) (s : State) : (latchCore e s).ipend = s.ipend := by simp [latchCore]
@[simp] theorem latchCore_evt (e : EnvInput) (s : State) : (latchCore e s).evt = s.evt := by simp [latchCore]
@[simp] theorem latchCore_sic (e : EnvInput) (s : State) : (latchCore e s).sic = s.sic := by simp [latchCore]
@[simp] theorem latchCore_idle (e : EnvInput) (s : State) : (latchCore e s).idle = s.idle := by simp [latchCore]
@[simp] theorem latchCore_doubleFault (e : EnvInput) (s : State) : (latchCore e s).doubleFault = s.doubleFault := by simp [latchCore]
@[simp] theorem latchCore_mem (e : EnvInput) (s : State) : (latchCore e s).mem = s.mem := by simp [latchCore]
@[simp] theorem latchCore_memEpoch (e : EnvInput) (s : State) : (latchCore e s).memEpoch = s.memEpoch := by simp [latchCore]
@[simp] theorem latchCore_plat (e : EnvInput) (s : State) : (latchCore e s).plat = s.plat := by simp [latchCore]
@[simp] theorem latchCore_env (e : EnvInput) (s : State) : (latchCore e s).env = s.env := by simp [latchCore]
@[simp] theorem latchCore_draws (e : EnvInput) (s : State) : (latchCore e s).draws = s.draws := by simp [latchCore]
@[simp] theorem latchCore_mode (e : EnvInput) (s : State) : (latchCore e s).mode = s.mode := State.mode_congr (by simp)

@[simp] theorem latchSic_pc (e : EnvInput) (s : State) : (latchSic e s).pc = s.pc := rfl
@[simp] theorem latchSic_d (e : EnvInput) (s : State) : (latchSic e s).d = s.d := rfl
@[simp] theorem latchSic_p (e : EnvInput) (s : State) : (latchSic e s).p = s.p := rfl
@[simp] theorem latchSic_ssp (e : EnvInput) (s : State) : (latchSic e s).ssp = s.ssp := rfl
@[simp] theorem latchSic_usp (e : EnvInput) (s : State) : (latchSic e s).usp = s.usp := rfl
@[simp] theorem latchSic_fp (e : EnvInput) (s : State) : (latchSic e s).fp = s.fp := rfl
@[simp] theorem latchSic_rets (e : EnvInput) (s : State) : (latchSic e s).rets = s.rets := rfl
@[simp] theorem latchSic_reti (e : EnvInput) (s : State) : (latchSic e s).reti = s.reti := rfl
@[simp] theorem latchSic_retx (e : EnvInput) (s : State) : (latchSic e s).retx = s.retx := rfl
@[simp] theorem latchSic_retn (e : EnvInput) (s : State) : (latchSic e s).retn = s.retn := rfl
@[simp] theorem latchSic_rete (e : EnvInput) (s : State) : (latchSic e s).rete = s.rete := rfl
@[simp] theorem latchSic_loop0 (e : EnvInput) (s : State) : (latchSic e s).loop0 = s.loop0 := rfl
@[simp] theorem latchSic_loop1 (e : EnvInput) (s : State) : (latchSic e s).loop1 = s.loop1 := rfl
@[simp] theorem latchSic_seqstat (e : EnvInput) (s : State) : (latchSic e s).seqstat = s.seqstat := rfl
@[simp] theorem latchSic_syscfg (e : EnvInput) (s : State) : (latchSic e s).syscfg = s.syscfg := rfl
@[simp] theorem latchSic_cycles (e : EnvInput) (s : State) : (latchSic e s).cycles = s.cycles := rfl
@[simp] theorem latchSic_cycles2 (e : EnvInput) (s : State) : (latchSic e s).cycles2 = s.cycles2 := rfl
@[simp] theorem latchSic_astat (e : EnvInput) (s : State) : (latchSic e s).astat = s.astat := rfl
@[simp] theorem latchSic_imask (e : EnvInput) (s : State) : (latchSic e s).imask = s.imask := rfl
@[simp] theorem latchSic_ipend (e : EnvInput) (s : State) : (latchSic e s).ipend = s.ipend := rfl
@[simp] theorem latchSic_evt (e : EnvInput) (s : State) : (latchSic e s).evt = s.evt := rfl
@[simp] theorem latchSic_idle (e : EnvInput) (s : State) : (latchSic e s).idle = s.idle := rfl
@[simp] theorem latchSic_doubleFault (e : EnvInput) (s : State) : (latchSic e s).doubleFault = s.doubleFault := rfl
@[simp] theorem latchSic_mem (e : EnvInput) (s : State) : (latchSic e s).mem = s.mem := rfl
@[simp] theorem latchSic_memEpoch (e : EnvInput) (s : State) : (latchSic e s).memEpoch = s.memEpoch := rfl
@[simp] theorem latchSic_plat (e : EnvInput) (s : State) : (latchSic e s).plat = s.plat := rfl
@[simp] theorem latchSic_env (e : EnvInput) (s : State) : (latchSic e s).env = s.env := rfl
@[simp] theorem latchSic_draws (e : EnvInput) (s : State) : (latchSic e s).draws = s.draws := rfl
@[simp] theorem latchSic_mode (e : EnvInput) (s : State) : (latchSic e s).mode = s.mode := State.mode_congr (by simp)

@[simp] theorem latchInputs_pc (e : EnvInput) (s : State) : (latchInputs e s).pc = s.pc := by simp [latchInputs]
@[simp] theorem latchInputs_d (e : EnvInput) (s : State) : (latchInputs e s).d = s.d := by simp [latchInputs]
@[simp] theorem latchInputs_p (e : EnvInput) (s : State) : (latchInputs e s).p = s.p := by simp [latchInputs]
@[simp] theorem latchInputs_ssp (e : EnvInput) (s : State) : (latchInputs e s).ssp = s.ssp := by simp [latchInputs]
@[simp] theorem latchInputs_usp (e : EnvInput) (s : State) : (latchInputs e s).usp = s.usp := by simp [latchInputs]
@[simp] theorem latchInputs_fp (e : EnvInput) (s : State) : (latchInputs e s).fp = s.fp := by simp [latchInputs]
@[simp] theorem latchInputs_rets (e : EnvInput) (s : State) : (latchInputs e s).rets = s.rets := by simp [latchInputs]
@[simp] theorem latchInputs_reti (e : EnvInput) (s : State) : (latchInputs e s).reti = s.reti := by simp [latchInputs]
@[simp] theorem latchInputs_retx (e : EnvInput) (s : State) : (latchInputs e s).retx = s.retx := by simp [latchInputs]
@[simp] theorem latchInputs_retn (e : EnvInput) (s : State) : (latchInputs e s).retn = s.retn := by simp [latchInputs]
@[simp] theorem latchInputs_rete (e : EnvInput) (s : State) : (latchInputs e s).rete = s.rete := by simp [latchInputs]
@[simp] theorem latchInputs_loop0 (e : EnvInput) (s : State) : (latchInputs e s).loop0 = s.loop0 := by simp [latchInputs]
@[simp] theorem latchInputs_loop1 (e : EnvInput) (s : State) : (latchInputs e s).loop1 = s.loop1 := by simp [latchInputs]
@[simp] theorem latchInputs_syscfg (e : EnvInput) (s : State) : (latchInputs e s).syscfg = s.syscfg := by simp [latchInputs]
@[simp] theorem latchInputs_cycles (e : EnvInput) (s : State) : (latchInputs e s).cycles = s.cycles := by simp [latchInputs]
@[simp] theorem latchInputs_cycles2 (e : EnvInput) (s : State) : (latchInputs e s).cycles2 = s.cycles2 := by simp [latchInputs]
@[simp] theorem latchInputs_astat (e : EnvInput) (s : State) : (latchInputs e s).astat = s.astat := by simp [latchInputs]
@[simp] theorem latchInputs_imask (e : EnvInput) (s : State) : (latchInputs e s).imask = s.imask := by simp [latchInputs]
@[simp] theorem latchInputs_ipend (e : EnvInput) (s : State) : (latchInputs e s).ipend = s.ipend := by simp [latchInputs]
@[simp] theorem latchInputs_evt (e : EnvInput) (s : State) : (latchInputs e s).evt = s.evt := by simp [latchInputs]
@[simp] theorem latchInputs_idle (e : EnvInput) (s : State) : (latchInputs e s).idle = s.idle := by simp [latchInputs]
@[simp] theorem latchInputs_doubleFault (e : EnvInput) (s : State) : (latchInputs e s).doubleFault = s.doubleFault := by simp [latchInputs]
@[simp] theorem latchInputs_mem (e : EnvInput) (s : State) : (latchInputs e s).mem = s.mem := by simp [latchInputs]
@[simp] theorem latchInputs_memEpoch (e : EnvInput) (s : State) : (latchInputs e s).memEpoch = s.memEpoch := by simp [latchInputs]
@[simp] theorem latchInputs_plat (e : EnvInput) (s : State) : (latchInputs e s).plat = s.plat := by simp [latchInputs]
@[simp] theorem latchInputs_env (e : EnvInput) (s : State) : (latchInputs e s).env = s.env := by simp [latchInputs]
@[simp] theorem latchInputs_draws (e : EnvInput) (s : State) : (latchInputs e s).draws = s.draws := by simp [latchInputs]
@[simp] theorem latchInputs_mode (e : EnvInput) (s : State) : (latchInputs e s).mode = s.mode := State.mode_congr (by simp)

/-- The levels of events are all but 4, in rising order (60_exceptions.md R322). -/
theorem mem_eventLevels (c : Fin 16) : c ∈ eventLevels ↔ c ≠ 4 := by
  revert c
  decide

/-- The levels stand in rising order. -/
theorem eventLevels_sorted : eventLevels.Pairwise (· < ·) := by decide

/-- The event check answers once: an event to take ends the step, else the state goes on as it is. -/
theorem checkEvents_cases (s : State) :
    (∃ n, s.pendingEvent = some n ∧ checkEvents s = .error (.next (takeEvent n s.pc s))) ∨
    (s.pendingEvent = none ∧ checkEvents s = .ok s) := by
  unfold checkEvents
  cases h : s.pendingEvent with
  | some n => exact .inl ⟨n, rfl, rfl⟩
  | none => exact .inr ⟨rfl, rfl⟩

/-- Everything a step can do before the fetch, once: a reset, a stop, an event, waiting, or going on to the fetch from a state
that differs from the latched one in the wait state and the count of draws alone. -/
theorem prepare_cases (s : State) :
    let u := latchInputs s.nextInput (s.setEnv s.env.tail)
    prepare s = .error (.next (resetState s.nextInput.periph (s.setEnv s.env.tail))) ∨
    (s.doubleFault = true ∧ prepare s = .error (.fault .doubleFaultState)) ∨
    (∃ r, (r = .softReset ∨ r = .iarField ∨ r = .emulationEvent) ∧ prepare s = .error (.refused r)) ∨
    (s.doubleFault = false ∧ ∃ v, (v = u ∨ v = u.setIdle false ∨ v = (u.setIdle false).setDraws (u.draws + 1)) ∧
      ((∃ n, v.pendingEvent = some n ∧ prepare s = .error (.next (takeEvent n v.pc v))) ∨
        (v.idle = false ∧ v.pendingEvent = none ∧ prepare s = .ok v))) ∨
    (s.doubleFault = false ∧ ∃ d, prepare s = .error (.next (u.setDraws d))) := by
  intro u
  by_cases hr : s.nextInput.reset = true
  · exact .inl (by unfold prepare; simp [hr])
  by_cases hd : s.doubleFault = true
  · exact .inr (.inl ⟨hd, by unfold prepare; simp [hr, hd]⟩)
  by_cases h1 : s.ilat.getLsbD 1 = true
  · have hp : prepare s = .error (requestedReset s.nextInput.periph (s.setEnv s.env.tail)) := by
      unfold prepare; simp only [hr, hd, h1]; rfl
    rw [hp]
    unfold requestedReset
    split
    · exact .inr (.inr (.inl ⟨_, .inl rfl, rfl⟩))
    · exact .inl rfl
  by_cases hb : s.sic.badField = true
  · exact .inr (.inr (.inl ⟨_, .inr (.inl rfl), by unfold prepare; simp only [hr, hd, h1, hb]; rfl⟩))
  have hp : prepare s = afterLatch s.nextInput.wakeDraw u := by unfold prepare; simp only [hr, hd, h1, hb]; rfl
  have hd' : s.doubleFault = false := by simpa using hd
  by_cases he : u.emulationPending = true
  · exact .inr (.inr (.inl ⟨_, .inr (.inr rfl), by rw [hp]; unfold afterLatch; rw [if_pos he]⟩))
  rw [hp]
  unfold afterLatch
  rw [if_neg he]
  unfold checkIdle
  have go (v : State) (hv : v = u ∨ v = u.setIdle false ∨ v = (u.setIdle false).setDraws (u.draws + 1))
      (hi : v.idle = false) (o : Except Outcome State) (ho : checkEvents v = o) :
      ∃ v, (v = u ∨ v = u.setIdle false ∨ v = (u.setIdle false).setDraws (u.draws + 1)) ∧
      ((∃ n, v.pendingEvent = some n ∧ o = .error (.next (takeEvent n v.pc v))) ∨
        (v.idle = false ∧ v.pendingEvent = none ∧ o = .ok v)) := by
    subst ho
    rcases checkEvents_cases v with h | ⟨h1, h2⟩
    · exact ⟨v, hv, .inl h⟩
    · exact ⟨v, hv, .inr ⟨hi, h1, h2⟩⟩
  by_cases hi : u.idle = true
  · rw [if_pos hi]
    split
    · exact .inr (.inr (.inr (.inl ⟨hd', go (u.setIdle false) (.inr (.inl rfl)) rfl _ rfl⟩)))
    · split
      · split
        · exact .inr (.inr (.inr (.inl ⟨hd', go ((u.setIdle false).setDraws (u.draws + 1)) (.inr (.inr rfl)) rfl _ rfl⟩)))
        · exact .inr (.inr (.inr (.inr ⟨hd', u.draws + 1, rfl⟩)))
      · exact .inr (.inr (.inr (.inr ⟨hd', u.draws, rfl⟩)))
  · rw [if_neg hi]
    exact .inr (.inr (.inr (.inl ⟨hd', go u (.inl rfl) (by simpa using hi) _ rfl⟩)))

end Sys2Proof.Machine
end

