-- ==== Sys2Proof/Laws/PerInstr.lean ====
section
/-! SUPPORT. Facts about the syntax and the encoding, stated once for every statement. -/

namespace Sys2Proof.Laws.EncodedLength

/-- The length of a statement's encoding is the one its first half-word announces, and no statement begins like a 64-bit
multi-issue group (30_encoding.md R121, R122). -/
def Statement (i : Instr) : Prop :=
  ∃ (w0 : Half) (rest : List Half), encode i = w0 :: rest ∧ 2 * (encode i).length = statementLength w0 ∧
    isMultiIssue w0 = false

/-- A half-word with its highest bit clear is a whole statement. -/
theorem statement_of_short {i : Instr} {w0 : Half} (h : encode i = [w0]) (hb : w0.getLsbD 15 = false) : Statement i := by
  have hm : isMultiIssue w0 = false := by unfold isMultiIssue isWide; rw [hb]; rfl
  have hw : isWide w0 = false := by unfold isWide; rw [hb]; rfl
  exact ⟨w0, [], h, by rw [h]; unfold statementLength; rw [hm, hw]; rfl, hm⟩

/-- A half-word with its three highest bits set begins a 32-bit statement. -/
theorem statement_of_wide {i : Instr} {w0 w1 : Half} (h : encode i = [w0, w1]) (hf : w0.getLsbD 15 = true)
    (he : w0.getLsbD 14 = true) (hd : w0.getLsbD 13 = true) : Statement i := by
  have hm : isMultiIssue w0 = false := by unfold isMultiIssue; rw [hd]; simp
  have hw : isWide w0 = true := by unfold isWide; rw [hf, he]; rfl
  exact ⟨w0, [w1], h, by rw [h]; unfold statementLength; rw [hm, hw]; rfl, hm⟩

/-- Format ProgCtrl has its highest bit clear. -/
theorem progCtrl_top (func low : BitVec 4) : (progCtrl func low).getLsbD 15 = false := by
  unfold progCtrl
  rw [BitVec.getLsbD_append, BitVec.getLsbD_append]
  rfl

/-- Format PushPopMultiple has its highest bit clear. -/
theorem multipleWord_top (w : Bool) (x : Option DReg) (y : Option (Fin 6)) : (multipleWord w x y).getLsbD 15 = false := by
  unfold multipleWord
  iterate 5 rw [BitVec.getLsbD_append]
  rfl

theorem rts : Statement .rts :=
  statement_of_short rfl (progCtrl_top _ _)

theorem rti : Statement .rti :=
  statement_of_short rfl (progCtrl_top _ _)

theorem rtx : Statement .rtx :=
  statement_of_short rfl (progCtrl_top _ _)

theorem rtn : Statement .rtn :=
  statement_of_short rfl (progCtrl_top _ _)

theorem rte : Statement .rte :=
  statement_of_short rfl (progCtrl_top _ _)

theorem idle : Statement .idle :=
  statement_of_short rfl (progCtrl_top _ _)

theorem cli (d : DReg) : Statement (.cli d) :=
  statement_of_short rfl (progCtrl_top _ _)

theorem sti (d : DReg) : Statement (.sti d) :=
  statement_of_short rfl (progCtrl_top _ _)

theorem jumpP (p : PReg) : Statement (.jumpP p) :=
  statement_of_short rfl (progCtrl_top _ _)

theorem callP (p : PReg) : Statement (.callP p) :=
  statement_of_short rfl (progCtrl_top _ _)

theorem callPcP (p : PReg) : Statement (.callPcP p) :=
  statement_of_short rfl (progCtrl_top _ _)

theorem jumpPcP (p : PReg) : Statement (.jumpPcP p) :=
  statement_of_short rfl (progCtrl_top _ _)

theorem raise (n : BitVec 4) : Statement (.raise n) :=
  statement_of_short rfl (progCtrl_top _ _)

theorem excpt (m : BitVec 4) : Statement (.excpt m) :=
  statement_of_short rfl (progCtrl_top _ _)

theorem ifCcJump (bp : Bool) (off : BitVec 10) : Statement (.ifCcJump bp off) :=
  statement_of_short rfl (by simp only [branchWord, BitVec.getLsbD_append]; rfl)

theorem ifNotCcJump (bp : Bool) (off : BitVec 10) : Statement (.ifNotCcJump bp off) :=
  statement_of_short rfl (by simp only [branchWord, BitVec.getLsbD_append]; rfl)

theorem jumpS (off : BitVec 12) : Statement (.jumpS off) :=
  statement_of_short rfl (by simp only [BitVec.getLsbD_append]; rfl)

theorem jumpL (off : BitVec 24) : Statement (.jumpL off) :=
  statement_of_wide rfl (by rw [BitVec.getLsbD_append]; rfl) (by rw [BitVec.getLsbD_append]; rfl) (by rw [BitVec.getLsbD_append]; rfl)

theorem call (off : BitVec 24) : Statement (.call off) :=
  statement_of_wide rfl (by rw [BitVec.getLsbD_append]; rfl) (by rw [BitVec.getLsbD_append]; rfl) (by rw [BitVec.getLsbD_append]; rfl)

theorem lsetup (k : LoopIdx) (soff : BitVec 4) (p : PReg) (eoff : BitVec 10) : Statement (.lsetup k soff p eoff) :=
  statement_of_wide rfl (by simp only [BitVec.getLsbD_append]; rfl) (by simp only [BitVec.getLsbD_append]; rfl)
    (by simp only [BitVec.getLsbD_append]; rfl)

theorem push (r : Reg) : Statement (.push r) :=
  statement_of_short rfl (by simp only [pushPopWord, BitVec.getLsbD_append]; rfl)

theorem pop (r : Reg) : Statement (.pop r) :=
  statement_of_short rfl (by simp only [pushPopWord, BitVec.getLsbD_append]; rfl)

theorem pushMultiple (x : Option DReg) (y : Option (Fin 6)) : Statement (.pushMultiple x y) :=
  statement_of_short rfl (multipleWord_top _ _ _)

theorem popMultiple (x : Option DReg) (y : Option (Fin 6)) : Statement (.popMultiple x y) :=
  statement_of_short rfl (multipleWord_top _ _ _)

theorem regMove (dst src : Reg) : Statement (.regMove dst src) :=
  statement_of_short rfl (by simp only [BitVec.getLsbD_append]; rfl)

theorem ifCcMove (dst src : GReg) : Statement (.ifCcMove dst src) :=
  statement_of_short rfl (by simp only [ccMoveWord, BitVec.getLsbD_append]; rfl)

theorem ifNotCcMove (dst src : GReg) : Statement (.ifNotCcMove dst src) :=
  statement_of_short rfl (by simp only [ccMoveWord, BitVec.getLsbD_append]; rfl)

theorem ccEqD (x y : DReg) : Statement (.ccEqD x y) :=
  statement_of_short rfl (by simp only [compareWord, BitVec.getLsbD_append]; rfl)

theorem ccEqDImm (x : DReg) (imm : BitVec 3) : Statement (.ccEqDImm x imm) :=
  statement_of_short rfl (by simp only [compareWord, BitVec.getLsbD_append]; rfl)

theorem ccLtD (x y : DReg) : Statement (.ccLtD x y) :=
  statement_of_short rfl (by simp only [compareWord, BitVec.getLsbD_append]; rfl)

theorem ccLtDImm (x : DReg) (imm : BitVec 3) : Statement (.ccLtDImm x imm) :=
  statement_of_short rfl (by simp only [compareWord, BitVec.getLsbD_append]; rfl)

theorem ccLeD (x y : DReg) : Statement (.ccLeD x y) :=
  statement_of_short rfl (by simp only [compareWord, BitVec.getLsbD_append]; rfl)

theorem ccLeDImm (x : DReg) (imm : BitVec 3) : Statement (.ccLeDImm x imm) :=
  statement_of_short rfl (by simp only [compareWord, BitVec.getLsbD_append]; rfl)

theorem ccLtuD (x y : DReg) : Statement (.ccLtuD x y) :=
  statement_of_short rfl (by simp only [compareWord, BitVec.getLsbD_append]; rfl)

theorem ccLtuDImm (x : DReg) (imm : BitVec 3) : Statement (.ccLtuDImm x imm) :=
  statement_of_short rfl (by simp only [compareWord, BitVec.getLsbD_append]; rfl)

theorem ccLeuD (x y : DReg) : Statement (.ccLeuD x y) :=
  statement_of_short rfl (by simp only [compareWord, BitVec.getLsbD_append]; rfl)

theorem ccLeuDImm (x : DReg) (imm : BitVec 3) : Statement (.ccLeuDImm x imm) :=
  statement_of_short rfl (by simp only [compareWord, BitVec.getLsbD_append]; rfl)

theorem ccEqP (x y : PReg) : Statement (.ccEqP x y) :=
  statement_of_short rfl (by simp only [compareWord, BitVec.getLsbD_append]; rfl)

theorem ccEqPImm (x : PReg) (imm : BitVec 3) : Statement (.ccEqPImm x imm) :=
  statement_of_short rfl (by simp only [compareWord, BitVec.getLsbD_append]; rfl)

theorem ccLtP (x y : PReg) : Statement (.ccLtP x y) :=
  statement_of_short rfl (by simp only [compareWord, BitVec.getLsbD_append]; rfl)

theorem ccLtPImm (x : PReg) (imm : BitVec 3) : Statement (.ccLtPImm x imm) :=
  statement_of_short rfl (by simp only [compareWord, BitVec.getLsbD_append]; rfl)

theorem ccLeP (x y : PReg) : Statement (.ccLeP x y) :=
  statement_of_short rfl (by simp only [compareWord, BitVec.getLsbD_append]; rfl)

theorem ccLePImm (x : PReg) (imm : BitVec 3) : Statement (.ccLePImm x imm) :=
  statement_of_short rfl (by simp only [compareWord, BitVec.getLsbD_append]; rfl)

theorem ccLtuP (x y : PReg) : Statement (.ccLtuP x y) :=
  statement_of_short rfl (by simp only [compareWord, BitVec.getLsbD_append]; rfl)

theorem ccLtuPImm (x : PReg) (imm : BitVec 3) : Statement (.ccLtuPImm x imm) :=
  statement_of_short rfl (by simp only [compareWord, BitVec.getLsbD_append]; rfl)

theorem ccLeuP (x y : PReg) : Statement (.ccLeuP x y) :=
  statement_of_short rfl (by simp only [compareWord, BitVec.getLsbD_append]; rfl)

theorem ccLeuPImm (x : PReg) (imm : BitVec 3) : Statement (.ccLeuPImm x imm) :=
  statement_of_short rfl (by simp only [compareWord, BitVec.getLsbD_append]; rfl)

end Sys2Proof.Laws.EncodedLength
end

