-- ==== Sys2Proof/Laws/Program.lean ====
section
/-! SUPPORT. Laws of PROGRAM: the statement placed is the one found, every other place stays, and placing keeps the canonical
form. -/

namespace Sys2Proof.Machine

/-- Membership after an insertion. -/
theorem Program.mem_insert (p : Program) (e f : Placed) : f ∈ p.insert e ↔ f = e ∨ f ∈ p := by
  induction p with
  | nil => simp [Program.insert]
  | cons g p ih =>
    unfold Program.insert
    split
    · simp
    · simp only [List.mem_cons, ih]; tauto

/-- An insertion among statements that lie apart keeps them in order and apart. -/
theorem Program.insert_pairwise (p : Program) (e : Placed)
    (hp : p.Pairwise (fun e f => e.address < f.address ∧ e.apart f = true))
    (he : ∀ f ∈ p, f.address ≠ e.address ∧ e.apart f = true) :
    (p.insert e).Pairwise (fun e f => e.address < f.address ∧ e.apart f = true) := by
  induction p with
  | nil => simp [Program.insert]
  | cons g p ih =>
    rw [List.pairwise_cons] at hp
    have hg := he g (by simp)
    unfold Program.insert
    split
    · rename_i h
      rw [List.pairwise_cons, List.pairwise_cons]
      refine ⟨fun f hf => ?_, hp⟩
      refine ⟨?_, (he f hf).2⟩
      rcases List.mem_cons.1 hf with rfl | hf
      · exact h
      · have := (hp.1 f hf).1; omega
    · rename_i h
      rw [List.pairwise_cons]
      refine ⟨fun f hf => ?_, ih hp.2 fun f hf => he f (List.mem_cons_of_mem _ hf)⟩
      rcases (Program.mem_insert p e f).1 hf with rfl | hf
      · have h1 := hg.1
        refine ⟨by omega, ?_⟩
        have h2 := hg.2
        unfold Placed.apart at h2 ⊢
        rw [Bool.and_comm]; exact h2
      · exact hp.1 f hf

/-- A statement lies apart from none at its own address, if it has a byte. -/
theorem Placed.address_ne_of_apart {e f : Placed} (hf : f.address < 0x100000000) (he : 0 < e.bytes.length)
    (h : e.apart f = true) : f.address ≠ e.address := by
  intro hc
  unfold Placed.apart Placed.covers at h
  simp only [Bool.and_eq_true, Bool.not_eq_true', decide_eq_false_iff_not] at h
  have h1 := h.1
  rw [hc] at h1 hf
  apply h1
  have : (e.address + (0x100000000 - e.address)) % 0x100000000 = 0 := by
    rw [Nat.add_sub_cancel' (Nat.le_of_lt hf)]
  rw [this]; exact he

/-- A whole statement has a byte. -/
theorem Placed.wholeStatement_pos {e : Placed} (h : e.wholeStatement = true) : 0 < e.bytes.length := by
  unfold Placed.wholeStatement at h
  split at h
  · rename_i heq; rw [heq]; simp
  · cases h

/-- Placing a whole statement at an even address keeps the canonical form (00_scope.md R6; 20_memory.md R90). -/
theorem Program.place_wf (p : Program) (e : Placed) (hp : p.wf = true) (ha : e.address < 0x100000000)
    (he : e.address % 2 = 0) (hw : e.wholeStatement = true) : (p.place e).wf = true := by
  unfold Program.wf at hp ⊢
  rw [Bool.and_eq_true, List.all_eq_true, decide_eq_true_eq] at hp ⊢
  obtain ⟨h1, h2⟩ := hp
  have hm {f} (hf : f ∈ p.filter (fun f => e.apart f)) : f ∈ p ∧ e.apart f = true := by
    rwa [List.mem_filter] at hf
  refine ⟨fun f hf => ?_, Program.insert_pairwise _ e (h2.filter _) fun f hf => ⟨?_, (hm hf).2⟩⟩
  · rcases (Program.mem_insert _ e f).1 hf with rfl | hf
    · simp [ha, he, hw]
    · exact h1 f (hm hf).1
  · have hf' := h1 f (hm hf).1
    simp only [Bool.and_eq_true, decide_eq_true_eq] at hf'
    exact Placed.address_ne_of_apart hf'.1.1 (Placed.wholeStatement_pos hw) (hm hf).2

/-- What is found in a program with a statement inserted where none stands. -/
theorem Program.statementAt_insert (p : Program) (e : Placed) (h : ∀ f ∈ p, f.address ≠ e.address) (a : Nat) :
    (p.insert e).statementAt a = if a = e.address then some e.bytes else p.statementAt a := by
  induction p with
  | nil => rfl
  | cons g p ih =>
    have hg := h g (by simp)
    have ih := ih fun f hf => h f (List.mem_cons_of_mem _ hf)
    unfold Program.insert
    split
    · rfl
    · simp only [Program.statementAt, ih]
      by_cases h1 : a = g.address
      · rw [if_pos h1, if_pos h1, if_neg (by rw [h1]; exact hg)]
      · rw [if_neg h1, if_neg h1]

/-- The statement placed is the one found at its address. -/
theorem Program.statementAt_place (p : Program) (e : Placed) (hp : p.wf = true) (he : 0 < e.bytes.length) :
    (p.place e).statementAt e.address = some e.bytes := by
  unfold Program.place
  rw [Program.statementAt_insert, if_pos rfl]
  intro f hf
  rw [List.mem_filter] at hf
  unfold Program.wf at hp
  rw [Bool.and_eq_true, List.all_eq_true] at hp
  have hf' := hp.1 f hf.1
  simp only [Bool.and_eq_true, decide_eq_true_eq] at hf'
  exact Placed.address_ne_of_apart hf'.1.1 he hf.2

end Sys2Proof.Machine
end

