-- ==== Sys2Proof/Tests/Slice0.lean ====
section
/-! SUPPORT. The model's own tests: the well-formedness checks refuse, words of the spec decode, single steps give what the
vectors of 95_test_vectors.md say, and every hypothesis of a statement is met by some state. -/

namespace Sys2Proof.Tests

open Sys2Proof Sys2Proof.Machine

/-! ## Well-formedness: each check refuses an ill-formed term -/

theorem test_wf_pop_sp : (Instr.pop (.g (.p .sp))).wellFormed = false := by decide
theorem test_wf_pop_seqstat : (Instr.pop .seqstat).wellFormed = false := by decide
theorem test_wf_push_multiple_empty : (Instr.pushMultiple none none).wellFormed = false := by decide
theorem test_wf_pop_multiple_empty : (Instr.popMultiple none none).wellFormed = false := by decide
theorem test_wf_move_loop_to_loop : (Instr.regMove (.lc .l0) (.lc .l1)).wellFormed = false := by decide
theorem test_wf_move_into_seqstat : (Instr.regMove .seqstat (.g (.d 0))).wellFormed = false := by decide
theorem test_wf_lsetup_start : (Instr.lsetup .l0 1 (.p 0) 4).wellFormed = false := by decide
theorem test_wf_lsetup_end : (Instr.lsetup .l0 4 (.p 0) 3).wellFormed = false := by decide

/-! ## Decoding: words of the spec, one or more for every statement -/

/-- The statement a list of half-words decodes to. -/
def dec (ws : List Half) : Option Instr :=
  match decode (ws.flatMap halfBytes) with
  | .ok i => some i
  | .error _ => none

/-- Words of 30_encoding.md R140 (the map of the opcode space), rules R194 to R205, R290, R292 and X2, X3. -/
theorem test_decode_progctrl :
    dec [0x0010] = some .rts ∧ dec [0x0011] = some .rti ∧ dec [0x0012] = some .rtx ∧ dec [0x0013] = some .rtn ∧
    dec [0x0014] = some .rte ∧ dec [0x0020] = some .idle ∧ dec [0x0030] = some (.cli 0) ∧ dec [0x0043] = some (.sti 3) ∧
    dec [0x0050] = some (.jumpP (.p 0)) ∧ dec [0x0057] = some (.jumpP .fp) ∧ dec [0x0066] = some (.callP .sp) ∧
    dec [0x0072] = some (.callPcP (.p 2)) ∧ dec [0x0081] = some (.jumpPcP (.p 1)) ∧ dec [0x009F] = some (.raise 15) ∧
    dec [0x00A3] = some (.excpt 3) := by decide

/-- Vectors B1, B4, B6, B7, J2, J3. -/
theorem test_decode_branches :
    dec [0x1A00] = some (.ifCcJump false 0x200) ∧ dec [0x1C08] = some (.ifCcJump true 8) ∧
    dec [0x1008] = some (.ifNotCcJump false 8) ∧ dec [0x1408] = some (.ifNotCcJump true 8) ∧
    dec [0x2800] = some (.jumpS 0x800) ∧ dec [0x27FF] = some (.jumpS 0x7FF) := by decide

/-- Rules R192, R200 and vectors J4, J13, L2, L3: the 32-bit statements, and the numbering of log 1. -/
theorem test_decode_wide :
    dec [0xE280, 0x0000] = some (.jumpL 0x800000) ∧ dec [0xE27F, 0xFFFF] = some (.jumpL 0x7FFFFF) ∧
    dec [0xE3FF, 0xFF80] = some (.call 0xFFFF80) ∧ dec [0xE0AF, 0x53FF] = some (.lsetup .l0 15 (.p 5) 0x3FF) ∧
    dec [0xE0B2, 0x7010] = some (.lsetup .l1 2 .fp 0x10) ∧ decodeTableWord 32 0xE3FFFF80 = some (.call 0xFFFF80) ∧
    decodeTableWord 16 0x2010 = some (.jumpS 0x010) := by decide

/-- X12, X13, X16, X19 and vectors S10, S13, S16 to S20, M5, M6, M13, M14. -/
theorem test_decode_stack_and_moves :
    dec [0x017B] = some (.push .reti) ∧ dec [0x0166] = some (.push .astat) ∧ dec [0x014F] = some (.push (.g (.p .fp))) ∧
    dec [0x0172] = some (.push (.lb .l0)) ∧ dec [0x0178] = some (.push .usp) ∧ dec [0x013C] = some (.pop .retx) ∧
    dec [0x0131] = some (.pop (.lt .l0)) ∧ dec [0x05C0] = some (.pushMultiple (some 0) (some 0)) ∧
    dec [0x0570] = some (.pushMultiple (some 6) none) ∧ dec [0x04C3] = some (.pushMultiple none (some 3)) ∧
    dec [0x05AC] = some (.popMultiple (some 5) (some 4)) ∧ dec [0x31C1] = some (.regMove (.g (.d 0)) .seqstat) ∧
    dec [0x3830] = some (.regMove .astat (.g (.d 0))) ∧ dec [0x3878] = some (.regMove .rets (.g (.p (.p 0)))) ∧
    dec [0x3D83] = some (.regMove (.lc .l0) (.lc .l1)) := by decide

/-- Rules R238, R239 and vectors K3, K4, K6. -/
theorem test_decode_conditional_moves :
    dec [0x0740] = some (.ifCcMove (.d 0) (.p (.p 0))) ∧ dec [0x07FD] = some (.ifCcMove (.p .fp) (.p (.p 5))) ∧
    dec [0x068A] = some (.ifNotCcMove (.p (.p 1)) (.d 2)) ∧ dec [0x060A] = some (.ifNotCcMove (.d 1) (.d 2)) := by decide

/-- The examples of rules R222 to R226 and vectors C1, C8, C12, C13, C16. -/
theorem test_decode_data_compares :
    dec [0x0808] = some (.ccEqD 0 1) ∧ dec [0x0C20] = some (.ccEqDImm 0 4) ∧ dec [0x0891] = some (.ccLtD 1 2) ∧
    dec [0x0CBA] = some (.ccLtDImm 2 7) ∧ dec [0x0908] = some (.ccLeD 0 1) ∧ dec [0x0D18] = some (.ccLeDImm 0 3) ∧
    dec [0x0991] = some (.ccLtuD 1 2) ∧ dec [0x0DBA] = some (.ccLtuDImm 2 7) ∧ dec [0x0A08] = some (.ccLeuD 0 1) ∧
    dec [0x0E38] = some (.ccLeuDImm 0 7) := by decide

/-- The examples of rules R227 to R231 and vectors C17, C18, C20, C21. The words 0x0CC9 (I = 1, opc = 1, G = 1, y = 1, x = 1) and
0x0A4A (opc = 4, G = 1, y = 1, x = 2) are written out from 30_encoding.md R133. -/
theorem test_decode_pointer_compares :
    dec [0x087E] = some (.ccEqP .sp .fp) ∧ dec [0x0C40] = some (.ccEqPImm (.p 0) 0) ∧
    dec [0x08D1] = some (.ccLtP (.p 1) (.p 2)) ∧ dec [0x0CC9] = some (.ccLtPImm (.p 1) 1) ∧
    dec [0x0951] = some (.ccLeP (.p 1) (.p 2)) ∧ dec [0x0D65] = some (.ccLePImm (.p 5) 4) ∧
    dec [0x09E3] = some (.ccLtuP (.p 3) (.p 4)) ∧ dec [0x0DF8] = some (.ccLtuPImm (.p 0) 7) ∧
    dec [0x0A4A] = some (.ccLeuP (.p 2) (.p 1)) ∧ dec [0x0E43] = some (.ccLeuPImm (.p 3) 0) := by decide

/-- 30_encoding.md R122, R129, R142: reserved patterns are refused by name. -/
theorem test_decode_refuses :
    decode [0x00, 0x00] = .error (.unlisted 0x0000) ∧ decode [0x15, 0x00] = .error (.unlisted 0x0015) ∧
    decode [0x86, 0x04] = .error (.unlisted 0x0486) ∧ decode [0x00, 0xC8, 0, 0, 0, 0, 0, 0] = .error (.multiIssue 0xC800) ∧
    decode [0x00, 0xC8, 0, 0] = .error .tooShort ∧ decode [0x00, 0xE2] = .error .tooShort := by decide

/-- 30_encoding.md R121, R122: JUMP.S has 2 bytes, LSETUP 4, a multi-issue group 8. -/
theorem test_statement_lengths :
    statementLength 0x2010 = 2 ∧ statementLength 0xE0A2 = 4 ∧ statementLength 0xC800 = 8 := by decide

/-! ## The states the tests start from -/

/-- The base state of 95_test_vectors.md section 2: level 15 of Supervisor mode, with EVT2 and EVT3 and both stack pointers set. -/
def sup : State :=
  ((({ State.reset with pc := 0xFFA00100, ipend := 0x8000, ssp := 0xFF900100, usp := 0xFF800200 } : State).setEvt 2
    0xFFA00200).setEvt 3 0xFFA00800).setEvt 15 0xFFA00F00

/-- The same in User mode. -/
def usr : State :=
  sup.setIpend 0

/-- What a view gives of the state an instruction answers. -/
def got {α : Type} (o : Outcome) (f : State → α) : Option α :=
  match o with
  | .next t => some (f t)
  | .fault _ => none
  | .refused _ => none

/-- The state with the word `v` in data memory. -/
def withWord (s : State) (a : Nat) (v : Word) : State :=
  s.setDataWord a v

/-- The state with one loop unit set. -/
def withLoop (s : State) (k : LoopIdx) (lc lt lb : Word) : State :=
  s.setLoop k ⟨lc, lt, lb⟩

/-! ## Single steps -/

/-- S1 and S2: the stack of the mode. -/
theorem test_push_data_register :
    got (exec (.push (.g (.d 0))) (sup.setD 0 0x12345678)) (fun t => (t.pc, t.ssp, t.dataWord 0xFF9000FC)) =
      some (0xFFA00102, 0xFF9000FC, 0x12345678) ∧
    got (exec (.push (.g (.d 0))) (usr.setD 0 0x12345678)) (fun t => (t.usp, t.ssp, t.dataWord 0xFF8001FC)) =
      some (0xFF8001FC, 0xFF900100, 0x12345678) := by decide

/-- S3 and the example of R160: IPEND[4] and the byte order. -/
theorem test_push_reti :
    got (exec (.push .reti) ((sup.setIpend 0x0810).setReti 0xFFA00040))
      (fun t => (t.ipend, t.dataByte 0xFF9000FC, t.dataByte 0xFF9000FD, t.dataByte 0xFF9000FE, t.dataByte 0xFF9000FF)) =
      some (0x0800, 0x40, 0x00, 0xA0, 0xFF) := by decide

/-- S8 and S15: IPEND[4] is set by a pop of RETI alone. -/
theorem test_pop_return_register :
    got (exec (.pop .reti) (withWord { sup with ipend := 0x0800, ssp := 0xFF9000FC } 0xFF9000FC 0xFFA00040))
      (fun t => (t.pc, t.ssp, t.reti, t.ipend)) = some (0xFFA00102, 0xFF900100, 0xFFA00040, 0x0810) ∧
    got (exec (.pop .retx) (withWord { sup with ipend := 0x0008, ssp := 0xFF9000FC } 0xFF9000FC 0xFFA00503))
      (fun t => (t.retx, t.ipend)) = some (0xFFA00503, 0x0008) := by decide

/-- S18: the order of a multiple push. -/
theorem test_push_multiple :
    got (exec (.pushMultiple none (some 3)) (((sup.setP 3 0x33).setP 4 0x44).setP 5 0x45))
      (fun t => (t.ssp, t.dataWord 0xFF9000FC, t.dataWord 0xFF9000F8, t.dataWord 0xFF9000F4)) =
      some (0xFF9000F4, 0x33, 0x44, 0x45) := by decide

/-- S19, for its first and last registers: the order of a multiple pop. -/
theorem test_pop_multiple :
    got (exec (.popMultiple (some 7) (some 5))
      (withWord (withWord { sup with ssp := 0xFF9000F8 } 0xFF9000FC 0x77) 0xFF9000F8 0x45))
      (fun t => (t.ssp, t.dreg 7, t.preg (.p 5))) = some (0xFF900100, 0x77, 0x45) := by decide

/-- M1 and M3: a move of RETI leaves IPEND alone. -/
theorem test_move :
    got (exec (.regMove (.g (.d 0)) .seqstat) (sup.setSeqstat 0x00060024)) (fun t => (t.pc, t.dreg 0)) =
      some (0xFFA00102, 0x00060024) ∧
    got (exec (.regMove .reti (.g (.d 0))) ((sup.setIpend 0x0800).setD 0 0xFFA00044)) (fun t => (t.reti, t.ipend)) =
      some (0xFFA00044, 0x0800) := by decide

/-- J2, J6, J7, J9. -/
theorem test_jumps :
    got (exec (.jumpS 0x800) sup) State.pc = some 0xFF9FF100 ∧ got (exec (.jumpL 0x800000) sup) State.pc = some 0xFEA00100 ∧
    got (exec (.jumpP .fp) (sup.setFp 0xFFA02000)) State.pc = some 0xFFA02000 ∧
    got (exec (.jumpPcP (.p 1)) (sup.setP 1 0xFFFFFFF0)) State.pc = some 0xFFA000F0 := by decide

/-- J13, J16, J17, J18. -/
theorem test_calls_and_rts :
    got (exec (.call 0xFFFF80) sup) (fun t => (t.pc, t.rets)) = some (0xFFA00000, 0xFFA00104) ∧
    got (exec (.callPcP (.p 2)) (sup.setP 2 0xFFFFFF00)) (fun t => (t.pc, t.rets)) = some (0xFFA00000, 0xFFA00102) ∧
    got (exec (.callP .sp) (sup.setSsp 0xFFA05000)) (fun t => (t.pc, t.rets)) = some (0xFFA05000, 0xFFA00102) ∧
    got (exec .rts (usr.setRets 0xFFA00104)) State.pc = some 0xFFA00104 := by decide

/-- C3, C4, C5, C9, C8: signed and unsigned. -/
theorem test_data_compares :
    got (exec (.ccLtD 0 1) (sup.setD 0 0xFFFFFFFF)) State.cc = some true ∧
    got (exec (.ccLtuD 0 1) (sup.setD 0 0xFFFFFFFF)) State.cc = some false ∧
    got (exec (.ccLtD 0 1) ((sup.setD 0 0x80000000).setD 1 0x7FFFFFFF)) State.cc = some true ∧
    got (exec (.ccLeD 0 1) (sup.setD 1 0xFFFFFFFF)) State.cc = some false ∧
    got (exec (.ccLeuD 0 1) (sup.setD 1 0xFFFFFFFF)) State.cc = some true ∧
    got (exec (.ccEqD 0 1) (sup.setD 1 6)) State.cc = some false := by decide

/-- C10, C12, C13, C14, and the example of R224: how a constant is extended. -/
theorem test_data_compares_with_constants :
    got (exec (.ccEqDImm 2 4) (sup.setD 2 0xFFFFFFFC)) State.cc = some true ∧
    got (exec (.ccLtDImm 2 7) (sup.setD 2 0xFFFFFFFE)) State.cc = some true ∧
    got (exec (.ccLeDImm 0 3) (sup.setD 0 3)) State.cc = some true ∧
    got (exec (.ccLtuDImm 2 7) (sup.setD 2 6)) State.cc = some true ∧
    got (exec (.ccLeuDImm 2 7) (sup.setD 2 8)) State.cc = some false := by decide

/-- C17, C18, C19, and the examples of R228, R229: only CC changes. -/
theorem test_pointer_compares :
    got (exec (.ccEqP (.p 0) (.p 1)) (sup.setAstat ⟨1, false, 2⟩)) State.astat = some ⟨1, true, 2⟩ ∧
    got (exec (.ccLtuP (.p 3) (.p 4)) ((sup.setP 3 1).setP 4 0xFFFFFFFF)) State.cc = some true ∧
    got (exec (.ccLtP (.p 3) (.p 4)) ((sup.setP 3 1).setP 4 0xFFFFFFFF)) State.cc = some false ∧
    got (exec (.ccLeP (.p 1) (.p 2)) ((sup.setP 1 5).setP 2 5)) State.cc = some true ∧
    got (exec (.ccLeuP (.p 3) (.p 4)) (sup.setP 3 0xFFFFFFFF)) State.cc = some false := by decide

/-- C21 and the examples of R227, R230, R231. -/
theorem test_pointer_compares_with_constants :
    got (exec (.ccEqPImm (.p 0) 0) sup) State.cc = some true ∧
    got (exec (.ccLtPImm (.p 1) 7) (sup.setP 1 0xFFFFFFFE)) State.cc = some true ∧
    got (exec (.ccLePImm (.p 5) 4) (sup.setP 5 0xFFFFFFFC)) State.cc = some true ∧
    got (exec (.ccLtuPImm (.p 0) 7) (sup.setP 0 0xFFA00000)) State.cc = some false ∧
    got (exec (.ccLeuPImm (.p 3) 0) sup) State.cc = some true := by decide

/-- B1, B3, B4, B5. -/
theorem test_conditional_jumps :
    got (exec (.ifCcJump false 0x200) (sup.setAstat ⟨0, true, 0⟩)) State.pc = some 0xFF9FFD00 ∧
    got (exec (.ifCcJump false 0x1FF) sup) State.pc = some 0xFFA00102 ∧
    got (exec (.ifNotCcJump false 8) sup) State.pc = some 0xFFA00110 ∧
    got (exec (.ifNotCcJump false 8) (sup.setAstat ⟨0, true, 0⟩)) State.pc = some 0xFFA00102 := by decide

/-- K1, K3, K4, K5: SP is the stack pointer of the mode. -/
theorem test_conditional_moves :
    got (exec (.ifCcMove (.d 0) (.p (.p 0))) ((sup.setAstat ⟨0, true, 0⟩).setP 0 0xB0)) (fun t => t.dreg 0) = some 0xB0 ∧
    got (exec (.ifNotCcMove (.p (.p 2)) (.d 3)) (sup.setD 3 0xD3)) (fun t => t.preg (.p 2)) = some 0xD3 ∧
    got (exec (.ifNotCcMove (.d 1) (.d 2)) ((sup.setAstat ⟨0, true, 0⟩).setD 2 2)) (fun t => (t.pc, t.dreg 1)) =
      some (0xFFA00102, 0) ∧
    got (exec (.ifCcMove (.p .sp) (.d 0)) ((usr.setAstat ⟨0, true, 0⟩).setD 0 0xFF800300)) (fun t => (t.usp, t.ssp)) =
      some (0xFF800300, 0xFF900100) := by decide

/-- L2 and L8: LSETUP, and LSETUP at the end of the other unit's loop. -/
theorem test_lsetup :
    got (exec (.lsetup .l0 15 (.p 5) 0x3FF) (sup.setP 5 0xFFFFFFFF)) (fun t => (t.pc, t.loop0)) =
      some (0xFFA00104, ⟨0xFFFFFFFF, 0xFFA0011E, 0xFFA008FE⟩) ∧
    got (exec (.lsetup .l0 2 (.p 0) 4) (withLoop (sup.setP 0 5) .l1 2 0xFFA000FC 0xFFA00100))
      (fun t => (t.pc, t.loop0, t.loop1)) =
      some (0xFFA000FC, ⟨5, 0xFFA00104, 0xFFA00108⟩, ⟨1, 0xFFA000FC, 0xFFA00100⟩) := by decide

/-- L15, L16, L17: two loops that end at one instruction. -/
theorem test_loop_ends :
    (let s := withLoop (withLoop sup .l0 3 0xFFA000F8 0xFFA00100) .l1 3 0xFFA000FC 0xFFA00100;
      ((advance 2 s).pc, (advance 2 s).loop0.lc, (advance 2 s).loop1.lc) = (0xFFA000FC, 3, 2)) ∧
    (let s := withLoop (withLoop sup .l0 3 0xFFA000F8 0xFFA00100) .l1 1 0xFFA000FC 0xFFA00100;
      ((advance 2 s).pc, (advance 2 s).loop0.lc, (advance 2 s).loop1.lc) = (0xFFA000F8, 2, 0)) ∧
    (let s := withLoop (withLoop sup .l0 1 0xFFA000F8 0xFFA00100) .l1 1 0xFFA000FC 0xFFA00100;
      ((advance 2 s).pc, (advance 2 s).loop0.lc, (advance 2 s).loop1.lc) = (0xFFA00102, 0, 0)) := by decide

/-- E2, E9 and the cause of E5. -/
theorem test_raise :
    got (exec (.raise 15) sup) (fun t => (t.pc, t.ilat)) = some (0xFFA00102, 0x8000) ∧
    got (exec (.raise 0) sup) State.pc = none ∧
    got (exec (.raise 5) sup) (fun t => (t.ilat, t.seqstat)) = some (0x0020, 0x00060000) := by decide

/-- E19 and L27: EXCAUSE is replaced, HWERRCAUSE kept; RETX after a loop-back. -/
theorem test_excpt :
    got (exec (.excpt 3) (usr.setSeqstat 0x0006002A)) (fun t => (t.pc, t.retx, t.seqstat, t.ipend)) =
      some (0xFFA00800, 0xFFA00102, 0x00060003, 0x0008) ∧
    got (exec (.excpt 5) (withLoop usr .l0 3 0xFFA000F8 0xFFA00100)) (fun t => (t.retx, t.loop0.lc)) =
      some (0xFFA000F8, 2) := by decide

/-- E16: the double fault. -/
theorem test_double_fault :
    got (exec (.excpt 3) (usr.setIpend 0x0008)) (fun t => (t.pc, t.retx, t.seqstat, t.ipend, t.doubleFault)) =
      some (0xFFA00100, 0xFFA00100, 0x00000025, 0x0008, true) := by decide

/-- S5, S6: nothing is stored. -/
theorem test_error_exceptions :
    got (exec (.push .reti) usr) (fun t => (t.pc, t.retx, t.seqstat, t.usp, t.mem.length)) =
      some (0xFFA00800, 0xFFA00100, 0x0000002E, 0xFF800200, 0) ∧
    got (exec (.push (.g (.d 0))) (sup.setSsp 0xFF900102)) (fun t => (t.seqstat, t.ipend, t.ssp, t.mem.length)) =
      some (0x00000024, 0x8008, 0xFF900102, 0) := by decide

/-- E20, E22. -/
theorem test_cli_sti :
    got (exec (.cli 3) (sup.setImask 0xFFFF)) (fun t => (t.dreg 3, t.imask)) = some (0x0000FFFF, 0x001F) ∧
    got (exec (.sti 3) (sup.setD 3 0xFFFFFFE0)) State.imask = some 0xFFFF := by decide

/-- E26, E27, E34, E38, E40, E43; RTE at an emulation level (44_event_instructions.md R299). -/
theorem test_returns_and_idle :
    got (exec .rti (({ sup with ipend := 0x0090, reti := 0xFFA00044 } : State))) (fun t => (t.pc, t.ipend)) =
      some (0xFFA00044, 0x0000) ∧
    got (exec .rti (({ sup with ipend := 0x8080 } : State))) State.ipend = some 0x8000 ∧
    got (exec .rtx (({ sup with ipend := 0x8018, retx := 0xFFA00044 } : State))) (fun t => (t.pc, t.ipend)) =
      some (0xFFA00044, 0x8010) ∧
    got (exec .rtn (({ sup with ipend := 0x0094, retn := 0xFFA00044 } : State))) (fun t => (t.pc, t.ipend)) =
      some (0xFFA00044, 0x0090) ∧
    got (exec .rte (({ sup with ipend := 0x8001, rete := 0xFFA00044 } : State))) (fun t => (t.pc, t.ipend)) =
      some (0xFFA00044, 0x8000) ∧
    got (exec .rte sup) State.pc = none ∧
    got (exec .idle sup) (fun t => (t.pc, t.idle)) = some (0xFFA00102, true) := by decide

/-- W1, W2, W5, W6, W12: stores to registers in memory. -/
theorem test_registers_in_memory :
    (memWrite 0xFFE0210C 0x80 (({ sup with ilat := 0x0880, imask := 0x081F } : State))).map State.ilat = .ok 0x0800 ∧
    (memWrite 0xFFE0210C 0x800 (({ sup with ilat := 0x0880, imask := 0x081F } : State))).map State.ilat =
      .error (.refusal .ilatClearEnabled) ∧
    (memWrite 0xFFE02104 0xFFFFFFFF sup).map State.imask = .ok 0xFFFF ∧
    (memWrite 0xFFE02104 0 (sup.setImask 0xFFFF)).map State.imask = .ok 0x001F ∧
    (memWrite 0xFFC00118 0x66655440 sup).map (fun t => t.sic.iar2) = .ok 0x66655440 := by decide

/-- The state on a platform that lets a loop register be written at its own loop end (log 17). -/
def freeEnds (s : State) : State :=
  { s with plat := { s.plat with loopEndWrite := .freeView } }

/-- M10, L9: a loop register written at its own active loop end is refused (R262). -/
theorem test_loop_register_at_own_end_refused :
    exec (.regMove (.lc .l0) (.g (.d 0))) (withLoop (sup.setD 0 5) .l0 3 0xFFA000F8 0xFFA00100) = .refused .loopEndWrite ∧
    exec (.lsetup .l1 2 (.p 0) 4) (withLoop (sup.setP 0 5) .l1 2 0xFFA000FC 0xFFA00100) = .refused .loopEndWrite :=
  ⟨rfl, rfl⟩

/-- Log 17: on a platform that leaves it open the instruction runs, and LT0 and LB0 are as written. -/
theorem test_loop_register_at_own_end :
    (let s := freeEnds (withLoop (sup.setD 0 5) .l0 3 0xFFA000F8 0xFFA00100);
      got (exec (.regMove (.lc .l0) (.g (.d 0))) s) (fun t => (t.loop0.lt, t.loop0.lb)) = some (0xFFA000F8, 0xFFA00100) ∧
      got (exec (.regMove (.lt .l0) (.g (.d 0))) s) (fun t => (t.loop0.lt, t.loop0.lb)) = some (5, 0xFFA00100) ∧
      got (exec (.lsetup .l0 2 (.p 0) 4) s) (fun t => (t.loop0.lt, t.loop0.lb)) = some (0xFFA00104, 0xFFA00108)) := by decide

/-- An instruction that writes its own address to LB0: the unit sees it from the next instruction on (rules R262, R174), or at
once on a platform that follows R256 (log 38); the next address as LB0 is an ordinary write on both. -/
theorem test_loop_register_elsewhere :
    (let s := withLoop sup .l0 3 0xFFA000F8 0xFFA00200;
      let now : State := { s with plat := { s.plat with loopWriteSeen := .atOnce } };
      let i := Instr.regMove (.lb .l0) (.g (.d 0));
      got (exec i (s.setD 0 0xFFA00100)) (fun t => (t.pc, t.loop0)) = some (0xFFA00102, ⟨3, 0xFFA000F8, 0xFFA00100⟩) ∧
      got (exec i (now.setD 0 0xFFA00100)) (fun t => (t.pc, t.loop0)) = some (0xFFA000F8, ⟨2, 0xFFA000F8, 0xFFA00100⟩) ∧
      got (exec i (s.setD 0 0xFFA00102)) (fun t => (t.pc, t.loop0)) = some (0xFFA00102, ⟨3, 0xFFA000F8, 0xFFA00102⟩) ∧
      got (exec i (now.setD 0 0xFFA00102)) (fun t => (t.pc, t.loop0)) = some (0xFFA00102, ⟨3, 0xFFA000F8, 0xFFA00102⟩)) := by
  decide

/-- The state on a platform that lets CYCLES and CYCLES2 be written (log 13). -/
def freeCounters (s : State) : State :=
  { s with plat := { s.plat with counterWrite := .noEffect } }

/-- A pop and a move into CYCLES are refused (rules R163, R170), and run on a platform that follows R21 and R34 (log 13). -/
theorem test_cycles_destination :
    exec (.pop .cycles) (withWord sup 0xFF900100 5) = .refused .popDestination ∧
    exec (.regMove .cycles2 (.g (.d 0))) usr = .refused .moveForm ∧
    got (exec (.pop .cycles) (freeCounters (withWord sup 0xFF900100 5))) (fun t => (t.pc, t.ssp)) =
      some (0xFFA00102, 0xFF900104) ∧
    got (exec (.regMove .cycles2 (.g (.d 0))) (freeCounters usr)) (fun t => (t.pc, t.d)) = some (0xFFA00102, usr.d) :=
  ⟨rfl, rfl, by decide, by decide⟩

/-- 20_memory.md R95, R96: a 16-bit access to a register raises 0x23 in User mode, and in Supervisor mode latches IVHW with the
cause 0b00010. -/
theorem test_half_access :
    (mmrHalfRead .sicImask usr).map (fun x => x.2.ilat) = .error (.exc .dataProtection) ∧
    (mmrHalfWrite .sicIwr usr).map State.ilat = .error (.exc .dataProtection) ∧
    (mmrHalfRead .sicImask sup).map (fun x => (x.2.ilat, x.2.seqstat)) = .ok (0x0020, 0x00008000) := by decide

/-- The base state with a value of LOOP_END_TRANSFER. -/
def loopEnd (e : LoopEndTransfer) (s : State) : State :=
  { s with plat := { s.plat with loopEndTransfer := e } }

/-- L23, L24, L25, L26: a taken transfer at a loop end that has a meaning. -/
theorem test_loop_end_transfer :
    (let s := withLoop (sup.setAstat ⟨0, true, 0⟩) .l0 3 0xFFA000F8 0xFFA00100;
      got (exec (.ifCcJump false 0x020) (loopEnd .transferWins s)) (fun t => (t.pc, t.loop0.lc)) = some (0xFFA00140, 3) ∧
      got (exec (.ifCcJump false 0x020) (loopEnd .transferWinsDecrement s)) (fun t => (t.pc, t.loop0.lc)) =
        some (0xFFA00140, 2) ∧
      got (exec (.ifCcJump false 0x020) (loopEnd .refuse (s.setLoop0 ⟨0, 0xFFA000F8, 0xFFA00100⟩))) State.pc =
        some 0xFFA00140) ∧
    got (exec .rts (loopEnd .transferWinsDecrement (withLoop (sup.setRets 0xFFA00400) .l1 1 0xFFA000F8 0xFFA00100)))
      (fun t => (t.pc, t.loop1.lc)) = some (0xFFA00400, 0) := by decide

/-- L22, E44: with the default `refuse` of LOOP_END_TRANSFER it has none. -/
theorem test_loop_end_refused :
    exec (.ifCcJump false 0x020) (withLoop (sup.setAstat ⟨0, true, 0⟩) .l0 3 0xFFA000F8 0xFFA00100) =
      .refused .loopEndTransfer ∧
    exec .rti (withLoop (sup.setIpend 0x0090) .l0 2 0xFFA000FC 0xFFA00100) = .refused .loopEndTransfer :=
  ⟨rfl, rfl⟩

/-- The state on a platform whose SOFT_RESET is `core_reset`. -/
def coreResets (s : State) : State :=
  { s with plat := { s.plat with softReset := .coreReset } }

/-- E12: RAISE 1 under the default `refuse` of SOFT_RESET, and its effect under `core_reset` (R282). -/
theorem test_soft_reset :
    exec (.raise 1) sup = .refused .softReset ∧
    got (exec (.raise 1) (coreResets sup)) (fun t => (t.pc, t.ilat)) = some (0xFFA00102, 0x0002) ∧
    got (step (coreResets (sup.setIlat 2))) (fun t => (t.pc, t.ilat)) = some (0x20000000, 0) := ⟨rfl, by decide, by decide⟩

/-- 00_scope.md R6, 20_memory.md R90: the middle of a placed statement is no statement. -/
theorem test_middle_of_statement :
    step ((sup.withFetchWord 32 0xE2000010).setPc 0xFFA00102) = .fault .unmappedFetch ∧
    (sup.withFetchWord 32 0xE2000010).isProgram 0xFFA00103 = true ∧
    (sup.withFetchWord 32 0xE2000010).isProgram 0xFFA00104 = false ∧
    (sup.withFetchWord 16 0xC800).isProgram 0xFFA00107 = true ∧
    (sup.withFetchWord 16 0xC800).plat.program.wf = true := ⟨rfl, by decide, by decide, by decide, by decide⟩

/-! ## States that meet the hypotheses of the statements, clause by clause -/

/-- A state whose next instruction is `JUMP.S 0x10`, with a step of no inputs scheduled. -/
def ready : State :=
  { sup.withFetchWord 16 0x2010 with env := [EnvInput.quiet] }

/-- The state `prepare` leaves of `ready`. -/
def readied : State :=
  (ready.setEnv []).setSic { ready.sic with isr := 0, sent := 0 }

theorem ready_prepared : prepare ready = .ok readied := rfl

theorem witness_DecodeInvertsEncode :
    (Instr.lsetup .l1 2 .sp 2).wellFormed = true ∧ (Instr.pop .usp).wellFormed = true ∧
    (Instr.pushMultiple none (some 5)).wellFormed = true ∧ (Instr.popMultiple (some 7) none).wellFormed = true ∧
    (Instr.regMove (.g (.p .sp)) .cycles).wellFormed = true ∧ (Instr.pop .cycles2).wellFormed = true ∧ (Instr.raise 0).wellFormed = true := by decide

theorem witness_EncodeInvertsDecode :
    decode [0x10, 0x20, 0x00, 0x00] = .ok (.jumpS 0x010) ∧ decode [0xA2, 0xE0, 0x06, 0x50] = .ok (.lsetup .l0 2 (.p 5) 6) := by
  decide

theorem witness_StepRunsDecodedStatement :
    prepare ready = .ok readied ∧ readied.pc.getLsbD 0 = false ∧
    readied.plat.program.statementAt readied.pc.toNat = some [0x10, 0x20] ∧ decode [0x10, 0x20] = .ok (.jumpS 0x010) ∧
    (Instr.jumpS 0x010).wellFormed = true ∧
    prepare (ready.setPc 0xFFA00102) = .ok (readied.setPc 0xFFA00102) ∧
    (readied.setPc 0xFFA00102).plat.program.statementAt 0xFFA00102 = none :=
  ⟨ready_prepared, by decide, by decide, by decide, by decide, rfl, by decide⟩

theorem witness_QuietStepReachesFetch :
    State.reset.env = [] ∧ State.reset.doubleFault = false ∧ State.reset.idle = false ∧
    State.reset.ilat.getLsbD 0 = false ∧ State.reset.ilat.getLsbD 1 = false ∧ State.reset.sic.badField = false ∧
    State.reset.pendingEvent = none := by decide

theorem witness_OddFetchRaises :
    prepare (ready.setPc 1) = .ok (readied.setPc 1) ∧ (readied.setPc 1).pc.getLsbD 0 = true ∧
    (readied.setPc 1).inHandler = false :=
  ⟨rfl, by decide, by decide⟩

theorem witness_StepKeepsInvariant : ready.Inv ∧ got (step ready) State.pc = some 0xFFA00120 := by
  constructor
  · unfold State.Inv; decide
  · decide

theorem witness_UserModeIsConfined :
    usr.mode = .user ∧ got (exec (.jumpS 0x010) usr) State.mode = some .user ∧
    got (exec (.excpt 3) usr) State.mode = some .supervisor := by decide
theorem witness_UserModeLearnsNothing :
    usr.mode = .user ∧ (({ usr with ipend := 0x0010, imask := 0xFFFF, ilat := 0x8000 } : State)).mode = .user ∧ got (exec (.push (.g (.d 0))) usr) State.mode = some .user := by decide

theorem witness_OnlyReturnsEnterUserMode :
    sup.mode ≠ .user ∧ got (exec .rti sup) State.mode = some .user := by decide

theorem witness_OnlyEventsChangeIpend :
    got (exec (.push .reti) (sup.setIpend 0x8010)) (fun t => decide (t.ipend ≠ 0x8010)) = some true ∧
    got (exec (.excpt 3) sup) (fun t => decide (t.ipend ≠ sup.ipend)) = some true := by decide

theorem witness_WhoWritesMaskAndLatch :
    got (exec (.sti 0) (sup.setD 0 0x20)) (fun t => decide (t.imask ≠ sup.imask)) = some true ∧
    sup.ilat.getLsbD 15 = false ∧ got (exec (.raise 15) sup) (fun t => t.ilat.getLsbD 15) = some true := by decide

theorem witness_ResetOverridesEverything :
    ({ sup with doubleFault := true, env := [{ EnvInput.quiet with reset := true }] } : State).nextInput.reset = true := by
  decide

theorem witness_RequestedResetIsTaken :
    (ready.setIlat 2).nextInput.reset = false ∧ (ready.setIlat 2).doubleFault = false ∧
    (ready.setIlat 2).ilat.getLsbD 1 = true ∧ (ready.setIlat 2).plat.softReset = .refuse ∧
    (coreResets (ready.setIlat 2)).plat.softReset = .coreReset ∧ (coreResets (ready.setIlat 2)).ilat.getLsbD 1 = true ∧
    (coreResets (ready.setIlat 2)).nextInput.reset = false ∧ (coreResets (ready.setIlat 2)).doubleFault = false := by decide

theorem witness_ErrorExceptionIsTaken : usr.inHandler = false ∧ Exc.dataMisaligned.service = false := by decide

theorem witness_DoubleFaultIsFinal :
    (sup.setIpend 0x0008).inHandler = true ∧ (sup.setIpend 0x0001).inHandler = true ∧
    (ready.setDoubleFault true).doubleFault = true ∧ (ready.setDoubleFault true).nextInput.reset = false := by decide

theorem witness_ExcptCompletes : usr.inHandler = false ∧ sup.inHandler = false := by decide

theorem witness_UserModeIsRefusedSupervisorResources : usr.mode = .user := by decide

theorem witness_MisalignedStackRaises :
    (sup.setSsp 0xFF900101).sp.extractLsb' 0 2 ≠ 0#2 ∧ (sup.setSsp 0xFF900101).inHandler = false ∧
    (sup.setSsp 0xFF900101).mode ≠ .user ∧ (usr.setUsp 0xFF800203).sp.extractLsb' 0 2 ≠ 0#2 ∧
    (usr.setUsp 0xFF800203).inHandler = false ∧ supervisorReg .rets = false ∧ popAdmitted .rets = true ∧
    (freeCounters (usr.setUsp 0xFF800203)).admitsWrite .cycles = true ∧ popAdmitted .cycles = true ∧
    (usr.setUsp 0xFF800203).admitsWrite .rets = true := by decide

theorem witness_UserModeIsRefusedRegistersInMemory :
    usr.mode = .user ∧ (mmrAt 0xFFE02000).isSome = true ∧ (mmrAt 0xFFE0203C).isSome = true ∧
    (mmrAt 0xFFC00124).isSome = true ∧ (0xFFE02001#32).extractLsb' 0 2 ≠ 0#2 ∧ supervisorReg .rets = false ∧
    (usr.setUsp 0xFFE02004).sp = 0xFFE02000 + 4 ∧ (usr.setUsp 0xFFE02000).sp = 0xFFE02000 ∧ popAdmitted .rets = true ∧
    (usr.setUsp 0xFFE02000).admitsWrite .rets = true := by decide

theorem witness_EventEntry :
    ((2 : Fin 16) = 2) ∧ 5 ≤ (5 : Fin 16).val ∧ 5 ≤ (15 : Fin 16).val ∧ usr.ipend.getLsbD 0 = false := by decide

theorem witness_AcceptanceRule :
    ({ usr with ilat := 0x0884, imask := 0x089F } : State).pendingEvent = some 2 ∧
    ({ usr with ilat := 0x8000, imask := 0x801F } : State).pendingEvent = some 15 ∧
    ({ sup with ilat := 0x8000, imask := 0x801F } : State).pendingEvent = none := by decide

/-- A state in which the NMI is latched, and one in which IVG15 is, each to be taken at its next step. -/
theorem witness_StepEntersEvent :
    (let s : State := { ready with ilat := 0x0004 };
      s.nextInput.reset = false ∧ s.doubleFault = false ∧ s.ilat.getLsbD 1 = false ∧ s.sic.badField = false ∧
      (latchInputs s.nextInput (s.setEnv s.env.tail)).emulationPending = false ∧
      (latchInputs s.nextInput (s.setEnv s.env.tail)).pendingEvent = some 2) ∧
    (let s : State := { ready with ilat := 0x8000, imask := 0x801F, ipend := 0 };
      s.nextInput.reset = false ∧ s.doubleFault = false ∧ s.ilat.getLsbD 1 = false ∧ s.sic.badField = false ∧
      (latchInputs s.nextInput (s.setEnv s.env.tail)).emulationPending = false ∧
      (latchInputs s.nextInput (s.setEnv s.env.tail)).pendingEvent = some 15) := by decide

/-- Sources 0 and 23 with field 9. -/
theorem witness_SicFollowsLines :
    (let s := ready.setSic { ready.sic with imask := 0x000001, iar0 := 0x10000009 };
      s.nextInput.reset = false ∧ s.doubleFault = false ∧ s.ilat.getLsbD 1 = false ∧
      s.sic.imask.getLsbD 0 = true ∧ 9 ≤ (s.sic.field 0).toNat) ∧
    (let s := ready.setSic { ready.sic with imask := 0x800000, iar2 := 0x96655444 };
      s.sic.imask.getLsbD 23 = true ∧ 9 ≤ (s.sic.field 23).toNat) := by decide

/-- The four cases of an idle core: an event to take, a request line, nothing latched, a request that cannot be taken. -/
theorem witness_IdleWakes :
    ({ usr with idle := true, ilat := 0x0004 } : State).pendingEvent = some 2 ∧
    (let s : State := { usr with idle := true, sic := { usr.sic with isr := 0x800000 } };
      s.pendingEvent = none ∧ s.sic.wakes = true) ∧
    (let s : State := { usr with idle := true };
      s.pendingEvent = none ∧ s.sic.wakes = false ∧ s.ilat &&& 0xFFE0#16 = 0) ∧
    (let s : State := { usr with idle := true, ilat := 0x0020 };
      s.pendingEvent = none ∧ s.sic.wakes = false ∧ s.ilat &&& 0xFFE0#16 ≠ 0) := by decide

/-- Events 5 and 15, from User mode. -/
theorem witness_RtiUndoesInterruptEntry :
    (let s := usr.setEvt 5 0xFFA00500;
      5 ≤ (5 : Fin 16).val ∧ s.ipend.getLsbD 4 = false ∧ (∀ c : Fin 16, c ≠ 4 → c ≤ 5 → s.ipend.getLsbD c.val = false) ∧
      s.evt.get 5 ≠ (s.loop .l0).lb ∧ s.evt.get 5 ≠ (s.loop .l1).lb) ∧
    (let s := usr;
      5 ≤ (15 : Fin 16).val ∧ (∀ c : Fin 16, c ≠ 4 → c ≤ 15 → s.ipend.getLsbD c.val = false) ∧
      s.evt.get 15 ≠ (s.loop .l0).lb ∧ s.evt.get 15 ≠ (s.loop .l1).lb) := by decide

theorem witness_TransferAtLoopEnd :
    (let s := withLoop sup .l0 0 0xFFA000F8 0xFFA00100;
      ∀ k ∈ [LoopIdx.l0, LoopIdx.l1], s.pc = (s.loop k).lb → (s.loop k).lc = 0) ∧
    (let s := withLoop sup .l1 1 0xFFA000F8 0xFFA00100; s.pc = (s.loop .l1).lb ∧ (s.loop .l1).lc ≠ 0 ∧
      s.plat.loopEndTransfer = .refuse ∧ (loopEnd .transferWins s).plat.loopEndTransfer = .transferWins ∧
      (loopEnd .transferWinsDecrement s).plat.loopEndTransfer = .transferWinsDecrement) := by decide

/-- A transfer has a meaning in the base states, and at an active end under the two values that give it one. -/
theorem witness_transferHasMeaning :
    sup.transferHasMeaning ∧ usr.transferHasMeaning ∧
    (loopEnd .transferWins (withLoop sup .l1 1 0xFFA000F8 0xFFA00100)).transferHasMeaning ∧
    (loopEnd .transferWinsDecrement (withLoop sup .l1 1 0xFFA000F8 0xFFA00100)).transferHasMeaning :=
  ⟨fun _ k _ => by cases k <;> rfl, fun _ k _ => by cases k <;> rfl, fun h => absurd h (by decide), fun h => absurd h (by decide)⟩

/-- The two loop-backs and the two ways past them, at the counts 2 and 1. -/
theorem witness_NextAddress :
    (let s := withLoop sup .l1 2 0xFFA000F8 0xFFA00100; s.pc = s.loop1.lb ∧ 2 ≤ s.loop1.lc.toNat) ∧
    (let s := withLoop (withLoop sup .l0 2 0xFFA000F8 0xFFA00100) .l1 1 0xFFA000F8 0xFFA00100;
      ¬ (s.pc = s.loop1.lb ∧ 2 ≤ s.loop1.lc.toNat) ∧ s.pc = s.loop0.lb ∧ 2 ≤ s.loop0.lc.toNat) ∧
    (let s := withLoop sup .l0 1 0xFFA000F8 0xFFA00100;
      ¬ (s.pc = s.loop1.lb ∧ 2 ≤ s.loop1.lc.toNat) ∧ ¬ (s.pc = s.loop0.lb ∧ 2 ≤ s.loop0.lc.toNat)) := by decide

theorem witness_CountsZeroAndOneRunOnce :
    (withLoop sup .l0 1 0xFFA000F8 0xFFA00100).loop0.lc = 1 ∧ (withLoop sup .l0 1 0xFFA000F8 0xFFA00100).loop1.lc = 0 := by
  decide

theorem witness_InnerLoopGoesFirst :
    (let s := withLoop (withLoop sup .l0 2 0xFFA000F8 0xFFA00100) .l1 2 0xFFA000FC 0xFFA00100;
      s.pc = s.loop0.lb ∧ s.pc = s.loop1.lb ∧ 2 ≤ s.loop0.lc.toNat ∧ 2 ≤ s.loop1.lc.toNat) ∧
    (let s := withLoop (withLoop sup .l0 2 0xFFA000F8 0xFFA00100) .l1 1 0xFFA000FC 0xFFA00100;
      s.pc = s.loop0.lb ∧ s.pc = s.loop1.lb ∧ 2 ≤ s.loop0.lc.toNat ∧ s.loop1.lc.toNat < 2) := by decide

theorem witness_LoopRunsCountTimes :
    (let s := withLoop sup .l1 1 0xFFA00100 0xFFA00100;
      s.loop1.lc.toNat = 0 + 1 ∧ s.pc = s.loop1.lb ∧ s.loop1.lt = s.loop1.lb ∧ (s.pc = s.loop0.lb → s.loop0.lc = 0)) ∧
    (let s := withLoop sup .l1 0xFFFFFFFF 0xFFA00100 0xFFA00100;
      s.loop1.lc.toNat = 0xFFFFFFFE + 1 ∧ s.pc = s.loop1.lb ∧ s.loop1.lt = s.loop1.lb ∧
      (s.pc = s.loop0.lb → s.loop0.lc = 0)) := by decide

/-- Offsets at both ends of their range; away from the own loop end, at it with a count, and at it without. -/
theorem witness_LsetupCompletes :
    2 ≤ (2#4).toNat ∧ (2#4).toNat ≤ (2#10).toNat ∧ (15#4).toNat ≤ (1023#10).toNat ∧
    (sup.plat.loopEndWrite = .refuse ∧ (sup.pc = (sup.loop .l0).lb → (sup.loop .l0).lc = 0 ∧ sup.preg (.p 0) = 0)) ∧
    (let s := freeEnds (withLoop sup .l1 2 0xFFA000FC 0xFFA00100);
      s.plat.loopEndWrite ≠ .refuse ∧ s.pc = (s.loop .l1).lb ∧ (s.loop .l1).lc ≠ 0) ∧
    (let s := withLoop sup .l1 0 0xFFA000FC 0xFFA00100;
      s.pc = (s.loop .l1).lb ∧ (s.loop .l1).lc = 0 ∧ s.preg (.p 0) = 0) := by decide

/-- Every aligned address that is no register holds a word of data memory, in each of the two base states. -/
theorem holdsWord_base (s : State) (hr : s.plat.ram = State.reset.plat.ram) (hp : s.plat.program = []) (a : Word) (ha : a.extractLsb' 0 2 = 0#2)
    (hm : mmrAt a = none) : s.holdsWord a := by
  refine ⟨ha, hm, fun i => ⟨?_, ?_⟩⟩
  · have h4 : a.toNat % 4 = 0 := by simpa [BitVec.extractLsb'_toNat] using congrArg BitVec.toNat ha
    have hi := i.isLt
    have hl := a.isLt
    unfold State.isRam
    rw [hr]
    simp [State.reset]
    omega
  · unfold State.isProgram
    rw [hp]
    rfl

/-- The lowest word of the address space, the highest one, and the words on both sides of the event vectors. -/
theorem witness_WordStoreAndLoad :
    sup.holdsWord 0 ∧ sup.holdsWord 0xFFFFFFFC ∧ sup.holdsWord 0xFFE01FFC ∧ sup.holdsWord 0xFFE02040 :=
  ⟨holdsWord_base _ rfl rfl _ (by decide) (by decide), holdsWord_base _ rfl rfl _ (by decide) (by decide),
    holdsWord_base _ rfl rfl _ (by decide) (by decide), holdsWord_base _ rfl rfl _ (by decide) (by decide)⟩

theorem witness_RegistersInMemory :
    sup.mode ≠ .user ∧ (0xFFE02000#32 = 0xFFE02000#32 + BitVec.ofNat 32 (4 * (0 : Fin 16).val)) ∧
    (0xFFE0203C#32 = 0xFFE02000#32 + BitVec.ofNat 32 (4 * (15 : Fin 16).val)) ∧
    ((0x20#32).setWidth 16 &&& sup.imask &&& 0xFFE0#16 = 0#16) ∧
    ((0x20#32).setWidth 16 &&& (sup.setImask 0x003F).imask &&& 0xFFE0#16 ≠ 0#16) := by decide

theorem witness_RegisterWriteAndRead :
    Reg.usp ≠ .seqstat ∧ Reg.usp ≠ .cycles ∧ Reg.usp ≠ .cycles2 ∧ Reg.usp ≠ .g (.p .sp) ∧
    ¬ (sup.mode = .user ∧ (Reg.usp = .usp ∧ Reg.g (.p .sp) = .g (.p .sp) ∨ Reg.usp = .g (.p .sp) ∧ Reg.g (.p .sp) = .usp)) := by
  decide

theorem witness_PushCompletes :
    ¬ (sup.mode = .user ∧ supervisorReg .reti = true) ∧ sup.holdsWord (sup.sp - 4) ∧
    ¬ (usr.mode = .user ∧ supervisorReg (.g (.p .sp)) = true) ∧ usr.holdsWord (usr.sp - 4) :=
  ⟨by decide, holdsWord_base _ rfl rfl _ (by decide) (by decide), by decide, holdsWord_base _ rfl rfl _ (by decide) (by decide)⟩

theorem witness_PushReachesEventVectors :
    sup.mode ≠ .user ∧
    (sup.setSsp 0xFFE02004).sp - 4 = 0xFFE02000#32 + BitVec.ofNat 32 (4 * (0 : Fin 16).val) ∧
    (sup.setSsp 0xFFE02040).sp - 4 = 0xFFE02000#32 + BitVec.ofNat 32 (4 * (15 : Fin 16).val) := by decide

/-- SYSCFG with the value 0x32 of vector S11, and LC0 away from its loop end. -/
theorem witness_PopCompletes :
    (let s := withWord sup 0xFF900100 0x32;
      popAdmitted .syscfg = true ∧ s.admitsWrite .syscfg = true ∧ ¬ (s.mode = .user ∧ supervisorReg .syscfg = true) ∧ s.holdsWord s.sp ∧
      (s.dataWord s.sp.toNat).getLsbD 0 = false ∧ (s.dataWord s.sp.toNat).getLsbD 2 = false ∧
      s.freeOfLoopEnd .syscfg (s.dataWord s.sp.toNat)) ∧
    (let s := withWord usr 0xFF800200 0x32;
      popAdmitted .cycles = true ∧ (freeCounters s).admitsWrite .cycles = true ∧
      popAdmitted (.lc .l0) = true ∧ s.admitsWrite (.lc .l0) = true ∧ ¬ (s.mode = .user ∧ supervisorReg (.lc .l0) = true) ∧ s.holdsWord s.sp ∧
      s.freeOfLoopEnd (.lc .l0) (s.dataWord s.sp.toNat)) := by
  refine ⟨⟨by decide, by decide, by decide, holdsWord_base _ rfl rfl _ (by decide) (by decide), by decide, by decide, ?_⟩,
    by decide, by decide, by decide, by decide, by decide, holdsWord_base _ rfl rfl _ (by decide) (by decide), ?_⟩
  · intro k hk
    simp [ofLoop] at hk
  · intro k _
    refine .inl ?_
    cases k <;> decide

/-- USP written in Supervisor mode; SYSCFG with a value that has bits 0 and 2 clear; LB1 with LC1 = 0. -/
theorem witness_MoveCompletes :
    (moveAdmitted .usp (.g (.d 0)) = true ∧ sup.admitsWrite .usp = true ∧ ¬ (sup.mode = .user ∧ (supervisorReg .usp = true ∨ supervisorReg (.g (.d 0)) = true)) ∧
      sup.freeOfLoopEnd .usp (sup.reg (.g (.d 0)))) ∧
    ((sup.reg (.g (.d 0))).getLsbD 0 = false ∧ (sup.reg (.g (.d 0))).getLsbD 2 = false) ∧
    (moveAdmitted (.lb .l1) (.g (.p .fp)) = true ∧ usr.admitsWrite (.lb .l1) = true ∧ usr.freeOfLoopEnd (.lb .l1) (usr.reg (.g (.p .fp)))) := by
  refine ⟨⟨by decide, by decide, by decide, ?_⟩, by decide, by decide, by decide, ?_⟩
  · intro k hk
    simp [ofLoop] at hk
  · intro k _
    refine .inr ⟨?_, ?_⟩
    · cases k <;> decide
    · intro h
      cases h

/-- A write of LC0 at the active loop end of its unit is the case of R262. -/
theorem loopEnd_not_free (s : State) (v : Word) (hb : s.pc = (s.loop .l0).lb) (hc : (s.loop .l0).lc ≠ 0) :
    ¬ s.freeOfLoopEnd (.lc .l0) v := by
  intro h
  rcases h .l0 (.inl rfl) with h | h
  · exact h hb
  · exact hc h.1

/-- LC0 written at its own active loop end (vector M10), by a move and by a pop: on the platform that refuses it, and on the one
that leaves open what the unit sees, where the write has a meaning. -/
theorem witness_MoveCompletes_PopCompletes_open :
    (let s := withLoop (sup.setD 0 5) .l0 3 0xFFA000F8 0xFFA00100;
      moveAdmitted (.lc .l0) (.g (.d 0)) = true ∧ ¬ (s.mode = .user ∧ supervisorReg (.lc .l0) = true) ∧
      ofLoop (.lc .l0) .l0 ∧ ¬ s.freeOfLoopEnd (.lc .l0) (s.reg (.g (.d 0))) ∧ s.plat.loopEndWrite = .refuse ∧
      (freeEnds s).writeHasMeaning (.lc .l0) ((freeEnds s).reg (.g (.d 0)))) ∧
    (let s := withLoop (withWord sup 0xFF900100 5) .l0 3 0xFFA000F8 0xFFA00100;
      s.holdsWord s.sp ∧ ¬ s.freeOfLoopEnd (.lc .l0) (s.dataWord s.sp.toNat) ∧ (freeEnds s).holdsWord s.sp ∧
      (freeEnds s).writeHasMeaning (.lc .l0) ((freeEnds s).dataWord s.sp.toNat)) :=
  ⟨⟨by decide, by decide, .inl rfl, loopEnd_not_free _ _ (by decide) (by decide), rfl, fun h => by cases h⟩,
    holdsWord_base _ rfl rfl _ (by decide) (by decide), loopEnd_not_free _ _ (by decide) (by decide),
    holdsWord_base _ rfl rfl _ (by decide) (by decide), fun h => by cases h⟩

theorem witness_PushMultipleCompletes :
    ((none : Option DReg).isSome || (some 3 : Option (Fin 6)).isSome) = true ∧
    ∀ i < (multipleRegs none (some 3)).length, sup.holdsWord (sup.sp - BitVec.ofNat 32 (4 * (i + 1))) := by
  refine ⟨by decide, ?_⟩
  have hl : (multipleRegs none (some 3)).length = 3 := by decide
  rw [hl]
  intro i hi
  interval_cases i <;> exact holdsWord_base _ rfl rfl _ (by decide) (by decide)

theorem witness_PopMultipleCompletes :
    ((some 6 : Option DReg).isSome || (some 5 : Option (Fin 6)).isSome) = true ∧
    ∀ i < (multipleRegs (some 6) (some 5)).reverse.length, usr.holdsWord (usr.sp + BitVec.ofNat 32 (4 * i)) := by
  refine ⟨by decide, ?_⟩
  have hl : (multipleRegs (some 6) (some 5)).reverse.length = 3 := by decide
  rw [hl]
  intro i hi
  interval_cases i <;> exact holdsWord_base _ rfl rfl _ (by decide) (by decide)

theorem witness_PopMultipleUndoesPushMultiple :
    ((none : Option DReg).isSome || (some 3 : Option (Fin 6)).isSome) = true ∧
    (∀ i < (multipleRegs none (some 3)).length, sup.holdsWord (sup.sp - BitVec.ofNat 32 (4 * (i + 1)))) ∧
    got (exec (.pushMultiple none (some 3)) sup) State.ssp = some 0xFF9000F4 :=
  ⟨witness_PushMultipleCompletes.1, witness_PushMultipleCompletes.2, by decide⟩

/-- A stack pointer in PROGRAM, and one where the platform has no data memory. -/
theorem witness_StackOutsideDataMemoryStops :
    (let s := (sup.withFetchWord 32 0xE2000010).setSsp 0xFFA00104;
      ¬ (s.mode = .user ∧ supervisorReg .rets = true) ∧ (0xFFA00100#32).extractLsb' 0 2 = 0#2 ∧
      mmrAt 0xFFA00100 = none ∧ s.isProgram ((0xFFA00100#32).toNat + 3) = true ∧ s.sp - 4 = 0xFFA00100) ∧
    (let s := (sup.withFetchWord 32 0xE2000010).setSsp 0xFFA00100;
      s.isProgram ((0xFFA00100#32).toNat + 0) = true ∧ s.sp = 0xFFA00100 ∧ popAdmitted .rets = true ∧ s.admitsWrite .rets = true) ∧
    (let s : State := { sup with plat := { sup.plat with ram := [⟨0, 2⟩] }, ssp := 4 };
      mmrAt 0 = none ∧ (∀ i : Fin 4, s.isProgram ((0#32).toNat + i.val) = false) ∧ s.isRam ((0#32).toNat + 2) = false ∧
      s.sp - 4 = 0) := by decide

theorem witness_FormsTheSpecRefuses :
    isGeneral .rets = false ∧ isGeneral .usp = false ∧ 2 * (1#4).toNat < 4 ∧ (2#10).toNat < (3#4).toNat ∧
    (sup.mode ≠ .user ∧ ((sup.setD 0 0x36).greg (.d 0)).getLsbD 2 = true) ∧
    (let s := withWord sup 0xFF900100 0x31;
      s.holdsWord s.sp ∧ s.mode ≠ .user ∧ (s.dataWord s.sp.toNat).getLsbD 0 = true) ∧
    ({ sup with plat := { sup.plat with counterWrite := .refuse } } : State).plat.counterWrite = .refuse ∧
    (let s := withLoop sup .l1 2 0xFFA000FC 0xFFA00100;
      s.plat.loopEndWrite = .refuse ∧ s.pc = (s.loop .l1).lb ∧ ((s.loop .l1).lc ≠ 0 ∨ s.preg (.p 0) ≠ 0)) :=
  ⟨by decide, by decide, by decide, by decide, by decide,
    ⟨holdsWord_base _ rfl rfl _ (by decide) (by decide), by decide, by decide⟩, rfl, by decide⟩

theorem witness_CliAndStiComplete : sup.mode ≠ .user := by decide

theorem witness_RaiseCompletes :
    (sup.setIpend 0x0012).mode ≠ .user ∧ sup.plat.softReset = .refuse ∧ (coreResets sup).plat.softReset ≠ .refuse := by decide

theorem witness_IdleCompletes : sup.mode ≠ .user := by decide

theorem witness_EventReturnsComplete :
    (sup.setIpend 0x0012).servicing 1 ∧ (sup.setIpend 0x8030).servicing 5 ∧ sup.servicing 15 ∧
    (sup.setIpend 0x0018).servicing 3 ∧ (sup.setIpend 0x0814).servicing 2 ∧ (sup.setIpend 0x8001).servicing 0 := by
  unfold State.servicing
  decide

theorem witness_WrongReturnIsRefused :
    (sup.setIpend 0x0001).servicing 0 ∧ (sup.setIpend 0x000C).servicing 2 ∧ (sup.setIpend 0x0008).servicing 3 ∧
    sup.servicing 15 := by
  unfold State.servicing
  decide

end Sys2Proof.Tests
end

/-! # What a step does before its instruction, and the instruction it runs (00_scope.md R6, R11) -/

namespace Sys2Proof.Machine

/-! ## The fetch and the step -/

/-- At an even pc the fetch decodes the statement PROGRAM places there (20_memory.md R90). -/
theorem fetch_of_statementAt_some {s : State} {bs : List Byte} (heven : s.pc.getLsbD 0 = false)
    (hbs : s.plat.program.statementAt s.pc.toNat = some bs) : fetch s = decodePlaced bs := by
  simp only [fetch, heven, hbs, Bool.false_eq_true, if_false]

/-- At an even pc where PROGRAM places no statement the fetch is stuck (20_memory.md R90; 00_scope.md R6). -/
theorem fetch_of_statementAt_none {s : State} (heven : s.pc.getLsbD 0 = false)
    (hnone : s.plat.program.statementAt s.pc.toNat = none) : fetch s = .error (.fault .unmappedFetch) := by
  simp only [fetch, heven, hnone, Bool.false_eq_true, if_false]

theorem decodePlaced_of_decode_ok {bs : List Byte} {i : Instr} (h : decode bs = .ok i) : decodePlaced bs = .ok i := by
  simp [decodePlaced, h]

/-- A step that reaches the fetch and fetches an instruction is the meaning of that instruction (00_scope.md R11). -/
theorem step_of_fetch_ok {s t : State} {i : Instr} (hprep : prepare s = .ok t) (hfetch : fetch t = .ok i) :
    step s = exec i t := by
  simp [step, hprep, hfetch]

/-- A step that reaches the fetch and fetches no instruction ends as the fetch says. -/
theorem step_of_fetch_error {s t : State} {o : Outcome} (hprep : prepare s = .ok t) (hfetch : fetch t = .error o) :
    step s = o := by
  simp [step, hprep, hfetch]

/-! ## The system interrupt controller without a request line -/

/-- With SIC_ISR clear no source requests (60_exceptions.md R332, R370). -/
theorem Sic.requests_of_isr_zero {c : Sic} (h : c.isr = 0) : c.requests = 0 := by
  simp [Sic.requests, h]

theorem Sic.pulses_of_isr_zero {c : Sic} (h : c.isr = 0) (ipend : BitVec 16) (early : BitVec 9) :
    c.pulses ipend early = 0 := by
  simp [Sic.pulses, Sic.requests_of_isr_zero h]

/-- Without a line asserted SIC_ISR is clear and every outstanding pulse is forgotten (60_exceptions.md R370, R376). -/
theorem Sic.latched_no_lines (c : Sic) (ipend : BitVec 16) (early : BitVec 9) :
    c.latched 0 ipend early = { c with isr := 0, sent := 0 } := by
  simp [Sic.latched, Sic.requests_of_isr_zero]

/-! ## A step's inputs when none is active -/

/-- Without a request line the SIC latches no interrupt. -/
theorem latchSic_no_lines {e : EnvInput} (h : e.periph = 0) (s : State) :
    latchSic e s = s.setSic { s.sic with isr := 0, sent := 0 } := by
  have hlatched := Sic.latched_no_lines s.sic s.ipend e.earlyPulse
  have hpulses : ({ s.sic with isr := (0 : BitVec 24).setWidth 32 } : Sic).pulses s.ipend e.earlyPulse = 0 :=
    Sic.pulses_of_isr_zero rfl _ _
  have hilat : s.ilat ||| ((0 : BitVec 9) ++ 0#7) = s.ilat := BitVec.or_zero
  unfold latchSic
  rw [h, hlatched, hpulses, hilat]
  rfl

/-- No input active: the core latches nothing, whatever the wake-up draw (60_exceptions.md R360). -/
theorem latchCore_quiet (wake : Bool) (s : State) : latchCore { EnvInput.quiet with wakeDraw := wake } s = s :=
  rfl

theorem latchInputs_quiet (wake : Bool) (s : State) :
    latchInputs { EnvInput.quiet with wakeDraw := wake } s = s.setSic { s.sic with isr := 0, sent := 0 } := by
  unfold latchInputs
  rw [latchCore_quiet, latchSic_no_lines rfl]

/-- After the last scheduled input no input is active (log 14). -/
theorem nextInput_of_env_nil {s : State} (h : s.env = []) :
    s.nextInput = { EnvInput.quiet with wakeDraw := (Config.freeWord s.draws).getLsbD 0 } := by
  simp [State.nextInput, h]

theorem setEnv_tail_of_env_nil {s : State} (h : s.env = []) : s.setEnv s.env.tail = s := by
  cases s
  subst h
  rfl

/-! ## From the inputs to the fetch -/

/-- Without reset, double fault, requested reset and undefined SIC_IAR field a step latches its inputs and goes on to the
event check (00_scope.md R11). -/
theorem prepare_eq_afterLatch {s : State} (hreset : s.nextInput.reset = false) (hfault : s.doubleFault = false)
    (hrequest : s.ilat.getLsbD 1 = false) (hfield : s.sic.badField = false) :
    prepare s = afterLatch s.nextInput.wakeDraw (latchInputs s.nextInput (s.setEnv s.env.tail)) := by
  simp only [prepare, hreset, hfault, hrequest, hfield, Bool.false_eq_true, if_false]

/-- A running core with no event to take goes on to the fetch as it is (60_exceptions.md R396). -/
theorem afterLatch_of_nothing_pending {s : State} (hemu : s.emulationPending = false) (hidle : s.idle = false)
    (hnone : s.pendingEvent = none) (wake : Bool) : afterLatch wake s = .ok s := by
  simp [afterLatch, checkIdle, checkEvents, hemu, hidle, hnone]

/-- ILAT[0] clear: no emulation event is requested (60_exceptions.md R430). -/
theorem emulationPending_of_ilat_zero_clear {s : State} (h : s.ilat.getLsbD 0 = false) : s.emulationPending = false := by
  simp only [State.emulationPending, h, Bool.false_and]

/-- The event to take depends on ILAT, IMASK and IPEND, not on the SIC's own registers (60_exceptions.md R396). -/
@[simp] theorem State.setSic_pendingEvent (s : State) (c : Sic) : (s.setSic c).pendingEvent = s.pendingEvent := rfl

/-! ## The statements -/

/-- Settles O5: no hypothesis lets the step end early, the quiet inputs change the SIC alone, and the event check does not
read it. -/
theorem quietStepReachesFetch : Obligations.QuietStepReachesFetch := by
  intro s henv hfault hidle hemu hrequest hfield hnone
  have hinput := nextInput_of_env_nil henv
  have hreset : s.nextInput.reset = false := by rw [hinput]; rfl
  have hlatched : latchInputs s.nextInput (s.setEnv s.env.tail) = s.setSic { s.sic with isr := 0, sent := 0 } := by
    rw [hinput, setEnv_tail_of_env_nil henv, latchInputs_quiet]
  rw [prepare_eq_afterLatch hreset hfault hrequest hfield, hlatched]
  apply afterLatch_of_nothing_pending
  · exact emulationPending_of_ilat_zero_clear hemu
  · exact hidle
  · rw [State.setSic_pendingEvent, hnone]

/-- Settles O4, by the two answers of PROGRAM at an even pc. -/
theorem stepRunsDecodedStatement : Obligations.StepRunsDecodedStatement := by
  intro s t hprep heven
  constructor
  · intro bs i hbs hdecode _
    exact step_of_fetch_ok hprep ((fetch_of_statementAt_some heven hbs).trans (decodePlaced_of_decode_ok hdecode))
  · intro hnone
    exact step_of_fetch_error hprep (fetch_of_statementAt_none heven hnone)

end Sys2Proof.Machine

/-! # The fields the invariant reads, the exceptions an instruction can raise, and what stores do -/

namespace Sys2Proof.Machine

/-! ## The watched fields -/

/-- The fields the invariant reads: memory, the event controller, SEQSTAT, SYSCFG, SIC_ISR and the double-fault output. -/
structure Watched where
  mem : Memory
  imask : BitVec 16
  ilat : BitVec 16
  ipend : BitVec 16
  seqstat : Word
  syscfg : Word
  isr : Word
  doubleFault : Bool

def State.watched (s : State) : Watched :=
  ⟨s.mem, s.imask, s.ilat, s.ipend, s.seqstat, s.syscfg, s.sic.isr, s.doubleFault⟩

/-- Equal watched fields, one by one. -/
theorem State.watched_eq_iff {s t : State} : t.watched = s.watched ↔
    t.mem = s.mem ∧ t.imask = s.imask ∧ t.ilat = s.ilat ∧ t.ipend = s.ipend ∧ t.seqstat = s.seqstat ∧
      t.syscfg = s.syscfg ∧ t.sic.isr = s.sic.isr ∧ t.doubleFault = s.doubleFault := by
  simp only [State.watched, Watched.mk.injEq]

theorem State.imask_of_watched {s t : State} (h : t.watched = s.watched) : t.imask = s.imask :=
  congrArg Watched.imask h

theorem State.ilat_of_watched {s t : State} (h : t.watched = s.watched) : t.ilat = s.ilat :=
  congrArg Watched.ilat h

theorem State.ipend_of_watched {s t : State} (h : t.watched = s.watched) : t.ipend = s.ipend :=
  congrArg Watched.ipend h

@[simp] theorem State.setRets_watched (s : State) (v : Word) : (s.setRets v).watched = s.watched := rfl
@[simp] theorem State.setDraws_watched (s : State) (v : Nat) : (s.setDraws v).watched = s.watched := rfl
@[simp] theorem State.setIdle_watched (s : State) (v : Bool) : (s.setIdle v).watched = s.watched := rfl
@[simp] theorem State.setEnv_watched (s : State) (v : List EnvInput) : (s.setEnv v).watched = s.watched := rfl

@[simp] theorem State.setSp_watched (s : State) (v : Word) : (s.setSp v).watched = s.watched := by
  simp [State.watched]

@[simp] theorem State.setGreg_watched (s : State) (r : GReg) (v : Word) : (s.setGreg r v).watched = s.watched := by
  simp [State.watched]

@[simp] theorem State.setLoop_watched (s : State) (k : LoopIdx) (u : LoopUnit) : (s.setLoop k u).watched = s.watched := by
  simp [State.watched]

@[simp] theorem State.afterRead_watched (s : State) (r : Reg) : (s.afterRead r).watched = s.watched := by
  simp [State.watched]

/-- SYSCFG is the one watched register a pop or a move can write (10_state.md R31, R32). -/
theorem State.setReg_watched {r : Reg} (h : r ≠ .syscfg) (s : State) (v : Word) : (s.setReg r v).watched = s.watched := by
  cases r with
  | g q => exact s.setGreg_watched q v
  | lc k | lt k | lb k => exact s.setLoop_watched k _
  | syscfg => exact absurd rfl h
  | _ => rfl

@[simp] theorem advance_watched (len : Word) (s : State) : (advance len s).watched = s.watched := by
  simp [State.watched]

@[simp] theorem transfer_watched (target : Word) (s : State) : (transfer target s).watched = s.watched := by
  simp [State.watched]

@[simp] theorem advanceWritten_watched (len : Word) (k : LoopIdx) (b a : State) :
    (advanceWritten len k b a).watched = a.watched := by
  simp [State.watched]

@[simp] theorem finishWrite_watched (r : Reg) (b a : State) : (finishWrite r b a).watched = a.watched := by
  simp [State.watched]

@[simp] theorem State.compareD_watched (s : State) (c : Bool) : (s.compareD c).watched = s.watched := rfl
@[simp] theorem State.compareP_watched (s : State) (c : Bool) : (s.compareP c).watched = s.watched := rfl

/-- Reading the value to push draws at most a free value. -/
@[simp] theorem afterPushRead_watched (r : Reg) (s : State) : (afterPushRead r s).watched = s.watched := by
  unfold afterPushRead
  split
  · rfl
  · exact s.afterRead_watched r

theorem State.setIpend_watched_congr {s t : State} (h : t.watched = s.watched) (v : BitVec 16) :
    (t.setIpend v).watched = (s.setIpend v).watched := by
  obtain ⟨hmem, himask, hilat, -, hseqstat, hsyscfg, hisr, hfault⟩ := State.watched_eq_iff.1 h
  exact State.watched_eq_iff.2 ⟨hmem, himask, hilat, rfl, hseqstat, hsyscfg, hisr, hfault⟩

theorem State.setSyscfg_watched_congr {s t : State} (h : t.watched = s.watched) (v : Word) :
    (t.setSyscfg v).watched = (s.setSyscfg v).watched := by
  obtain ⟨hmem, himask, hilat, hipend, hseqstat, -, hisr, hfault⟩ := State.watched_eq_iff.1 h
  exact State.watched_eq_iff.2 ⟨hmem, himask, hilat, hipend, hseqstat, rfl, hisr, hfault⟩

/-! ## The exceptions an instruction can raise -/

/-- The exceptions the model raises: EXCPT, the two faulty data accesses, the odd fetch and the protected resources
(60_exceptions.md R385, R388, R422). -/
def Exc.raisable : Exc → Bool
  | .forced _ | .dataProtection | .dataMisaligned | .fetchMisaligned | .illegalSupervisorResource => true
  | _ => false

/-- Whatever exception the computation ends in, the model raises it. -/
def RaisesOnly {α : Type} (e : Except Stop α) : Prop :=
  ∀ x, e = .error (.exc x) → x.raisable = true

theorem RaisesOnly.ok {α : Type} (a : α) : RaisesOnly (.ok a : Except Stop α) :=
  fun _ h => nomatch h

theorem RaisesOnly.refusal {α : Type} (r : Refusal) : RaisesOnly (.error (.refusal r) : Except Stop α) :=
  fun _ h => nomatch h

theorem RaisesOnly.bind {α β : Type} {e : Except Stop α} {f : α → Except Stop β} (he : RaisesOnly e)
    (hf : ∀ a, RaisesOnly (f a)) : RaisesOnly (e >>= f) := by
  cases e with
  | error stop =>
    intro x h
    exact he x (by cases h; rfl)
  | ok a => exact hf a

theorem RaisesOnly.map {α β : Type} {e : Except Stop α} (f : α → β) (he : RaisesOnly e) : RaisesOnly (e.map f) := by
  cases e with
  | error stop =>
    intro x h
    exact he x (by cases h; rfl)
  | ok a => exact .ok (f a)

theorem accessTarget_raisesOnly (a : Word) (s : State) : RaisesOnly (accessTarget a s) := by
  intro x hx
  rcases accessTarget_cases a s with ⟨_, e⟩ | ⟨_, _, _, e⟩ | ⟨_, _, _, _, e⟩ | ⟨_, _, e⟩ | ⟨_, _, e⟩ | ⟨_, _, e⟩ <;>
    rw [e] at hx <;> cases hx <;> rfl

theorem mmrWrite_raisesOnly (m : Mmr) (v : Word) (s : State) : RaisesOnly (mmrWrite m v s) := by
  intro x hx
  cases m with
  | evt | imask | ipend | sicImask | sicIsr => cases hx
  | ilat => simp only [mmrWrite] at hx; split at hx <;> cases hx
  | sicIar0 | sicIar1 | sicIar2 | sicIwr => simp only [mmrWrite, sicConfigure] at hx; split at hx <;> cases hx

theorem memRead_raisesOnly (a : Word) (s : State) : RaisesOnly (memRead a s) := by
  have htarget := accessTarget_raisesOnly a s
  unfold memRead
  split
  · exact .ok _
  · exact .ok _
  · next e he => exact fun x hx => htarget x (by rw [he]; cases hx; rfl)

theorem memWrite_raisesOnly (a v : Word) (s : State) : RaisesOnly (memWrite a v s) := by
  have htarget := accessTarget_raisesOnly a s
  unfold memWrite
  split
  · exact mmrWrite_raisesOnly _ v s
  · exact .ok _
  · next e he => exact fun x hx => htarget x (by rw [he]; cases hx; rfl)

theorem pushWord_raisesOnly (v : Word) (s : State) : RaisesOnly (pushWord v s) :=
  (memWrite_raisesOnly _ v s).map _

theorem popWord_raisesOnly (s : State) : RaisesOnly (popWord s) :=
  (memRead_raisesOnly _ s).map _

theorem checkRegister_raisesOnly (r : Reg) (s : State) : RaisesOnly (checkRegister r s) := by
  unfold checkRegister
  split
  · exact fun x hx => by cases hx; rfl
  · exact .ok ()

theorem checkSyscfg_raisesOnly (r : Reg) (v : Word) : RaisesOnly (checkSyscfg r v) := by
  unfold checkSyscfg
  split
  · exact .refusal _
  · exact .ok ()

theorem checkLoopWrite_raisesOnly (r : Reg) (b a : State) : RaisesOnly (checkLoopWrite r b a) := by
  rcases checkLoopWrite_cases r b a with h | h <;> rw [h]
  · exact .ok ()
  · exact .refusal _

theorem runPush_raisesOnly (r : Reg) (s : State) : RaisesOnly (runPush r s) :=
  (checkRegister_raisesOnly r s).bind fun _ => (pushWord_raisesOnly _ _).bind fun _ => .ok _

theorem runPop_raisesOnly (r : Reg) (s : State) : RaisesOnly (runPop r s) := by
  unfold runPop
  split
  · exact (checkRegister_raisesOnly r s).bind fun _ => (popWord_raisesOnly s).bind fun _ =>
      (checkSyscfg_raisesOnly r _).bind fun _ => (checkLoopWrite_raisesOnly r s _).bind fun _ => .ok _
  · exact .refusal _

theorem runMove_raisesOnly (dst src : Reg) (s : State) : RaisesOnly (runMove dst src s) := by
  unfold runMove
  split
  · exact (checkRegister_raisesOnly dst s).bind fun _ => (checkRegister_raisesOnly src s).bind fun _ =>
      (checkSyscfg_raisesOnly dst _).bind fun _ => (checkLoopWrite_raisesOnly dst s _).bind fun _ => .ok _
  · exact .refusal _

theorem pushAll_raisesOnly (rs : List GReg) (s : State) : RaisesOnly (pushAll rs s) := by
  induction rs generalizing s with
  | nil => exact .ok s
  | cons r rs ih => exact (pushWord_raisesOnly _ s).bind fun _ => ih _

theorem popAll_raisesOnly (rs : List GReg) (s : State) : RaisesOnly (popAll rs s) := by
  induction rs generalizing s with
  | nil => exact .ok s
  | cons r rs ih => exact (popWord_raisesOnly s).bind fun _ => ih _

theorem runPushMultiple_raisesOnly (x : Option DReg) (y : Option (Fin 6)) (s : State) :
    RaisesOnly (runPushMultiple x y s) := by
  unfold runPushMultiple
  split
  · exact (pushAll_raisesOnly _ s).map _
  · exact .refusal _

theorem runPopMultiple_raisesOnly (x : Option DReg) (y : Option (Fin 6)) (s : State) :
    RaisesOnly (runPopMultiple x y s) := by
  unfold runPopMultiple
  split
  · exact (popAll_raisesOnly _ s).map _
  · exact .refusal _

/-! ## What stores do to the watched fields -/

/-- Everything stores can do to the watched fields: memory stays canonical, IMASK[4:0] stays 1, bits of ILAT are cleared, and
the rest is kept (20_memory.md R94; 60_exceptions.md R365). -/
structure Stored (s t : State) : Prop where
  mem : s.mem.wf = true → t.mem.wf = true
  imask : s.imask.extractLsb' 0 5 = 0b11111#5 → t.imask.extractLsb' 0 5 = 0b11111#5
  ilat : ∀ b, s.ilat.getLsbD b = false → t.ilat.getLsbD b = false
  ipend : t.ipend = s.ipend
  seqstat : t.seqstat = s.seqstat
  syscfg : t.syscfg = s.syscfg
  isr : t.sic.isr = s.sic.isr
  doubleFault : t.doubleFault = s.doubleFault

theorem Stored.of_watched {s t : State} (h : t.watched = s.watched) : Stored s t := by
  obtain ⟨hmem, himask, hilat, hipend, hseqstat, hsyscfg, hisr, hfault⟩ := State.watched_eq_iff.1 h
  exact ⟨by rw [hmem]; exact id, by rw [himask]; exact id, by rw [hilat]; exact fun _ => id, hipend, hseqstat, hsyscfg, hisr,
    hfault⟩

theorem Stored.trans {s t u : State} (h : Stored s t) (h' : Stored t u) : Stored s u where
  mem := h'.mem ∘ h.mem
  imask := h'.imask ∘ h.imask
  ilat b := h'.ilat b ∘ h.ilat b
  ipend := h'.ipend.trans h.ipend
  seqstat := h'.seqstat.trans h.seqstat
  syscfg := h'.syscfg.trans h.syscfg
  isr := h'.isr.trans h.isr
  doubleFault := h'.doubleFault.trans h.doubleFault

/-- The low bits of IMASK read 1 after every write of it (10_state.md R40). -/
theorem State.writeImask_low (s : State) (v : Word) : (s.writeImask v).imask.extractLsb' 0 5 = 0b11111#5 :=
  BitVec.extractLsb'_append_eq_right

/-- A word of data memory is stored below 2^32, so memory stays canonical. -/
theorem State.setDataWord_wf {s : State} {a : Word} (v : Word) (ha : a.extractLsb' 0 2 = 0#2) (h : s.mem.wf = true) :
    (s.setDataWord a.toNat v).mem.wf = true :=
  Memory.wf_writeBytes _ _ _ h (aligned_bound a ha)

/-- An access that reaches data memory is aligned (20_memory.md R86). -/
theorem accessTarget_none_aligned {a : Word} {s : State} (h : accessTarget a s = .ok none) : a.extractLsb' 0 2 = 0#2 := by
  rcases accessTarget_cases a s with ⟨_, e⟩ | ⟨_, _, _, e⟩ | ⟨_, _, _, _, e⟩ | ⟨_, _, e⟩ | ⟨ha, _, _⟩ | ⟨_, _, e⟩
  case inr.inr.inr.inr.inl => exact ha
  all_goals rw [e] at h; cases h

theorem mmrWrite_stored {m : Mmr} {v : Word} {s t : State} (h : mmrWrite m v s = .ok t) : Stored s t := by
  rcases mmrWrite_cases h with ⟨n, rfl⟩ | rfl | rfl | ⟨rfl, _⟩ | ⟨c, rfl, hisr, _⟩
  · exact .of_watched rfl
  · exact { Stored.of_watched (s := s) rfl with imask := fun _ => s.writeImask_low v }
  · exact .of_watched rfl
  · exact { Stored.of_watched (s := s) rfl with ilat := fun b hb => by simp [hb] }
  · exact { Stored.of_watched (s := s) rfl with isr := hisr }

theorem memWrite_stored {a v : Word} {s t : State} (h : memWrite a v s = .ok t) : Stored s t := by
  rcases memWrite_cases h with ⟨htarget, rfl⟩ | ⟨m, _, hw⟩
  · exact { Stored.of_watched (s := s) rfl with mem := State.setDataWord_wf v (accessTarget_none_aligned htarget) }
  · exact mmrWrite_stored hw

theorem pushWord_stored {v : Word} {s t : State} (h : pushWord v s = .ok t) : Stored s t := by
  unfold pushWord at h
  cases hw : memWrite (s.sp - 4) v s with
  | error e => rw [hw] at h; cases h
  | ok u =>
    rw [hw] at h; cases h
    exact (memWrite_stored hw).trans (.of_watched (u.setSp_watched _))

theorem pushAll_stored {rs : List GReg} {s t : State} (h : pushAll rs s = .ok t) : Stored s t := by
  induction rs generalizing s with
  | nil => cases h; exact .of_watched rfl
  | cons r rs ih =>
    unfold pushAll at h
    cases hw : pushWord (s.greg r) s with
    | error e => rw [hw] at h; cases h
    | ok u => rw [hw] at h; exact (pushWord_stored hw).trans (ih h)

/-- A multiple pop writes registers of the two files and SP alone (40_stack_and_moves.md R167). -/
theorem popAll_watched {rs : List GReg} {s t : State} (h : popAll rs s = .ok t) : t.watched = s.watched := by
  induction rs generalizing s with
  | nil => cases h; rfl
  | cons r rs ih =>
    unfold popAll at h
    cases hw : popWord s with
    | error e => rw [hw] at h; cases h
    | ok vu =>
      obtain ⟨v, u⟩ := vu
      rw [hw] at h
      rw [ih h, u.setGreg_watched r v, popWord_state hw, s.setSp_watched]

end Sys2Proof.Machine

/-! # What an instruction can do to IPEND, IMASK and ILAT (10_state.md R40 to R42) -/

namespace Sys2Proof.Machine

/-! ## What an instruction does to the watched fields -/

/-- Everything an instruction can have done to the watched fields of `s` when it answers a state: it took an exception, wrote
SYSCFG, IMASK or ILAT, returned from an event, stored words, toggled IPEND[4] with RETI, or kept them. -/
inductive Effect (s : State) : Instr → State → Prop where
  | keeps {i : Instr} {t : State} (h : t.watched = s.watched) : Effect s i t
  | excepts {i : Instr} {x : Exc} {done : State} (hx : x.raisable = true) (hd : done.watched = s.watched)
      (hevt : done.evt = s.evt) : Effect s i (takeException x s done)
  | writesSyscfg {i : Instr} {v : Word} {t : State} (h0 : v.getLsbD 0 = false) (h2 : v.getLsbD 2 = false)
      (h : t.watched = (s.setSyscfg v).watched) : Effect s i t
  | cli {d : DReg} {t : State} (h : t.watched = (s.writeImask 0).watched) : Effect s (.cli d) t
  | sti {d : DReg} {t : State} (h : t.watched = (s.writeImask (s.dreg d)).watched) : Effect s (.sti d) t
  | raise {n : BitVec 4} {t : State} (hn : raiseRefused n = false)
      (h : t.watched = (raiseCause n (s.latchEvent n.toNat)).watched) : Effect s (.raise n) t
  | returns {i : Instr} {mask : BitVec 16} {t : State} (hi : i = .rti ∨ i = .rtx ∨ i = .rtn ∨ i = .rte)
      (h : t.watched = (s.setIpend (s.ipend &&& mask)).watched) : Effect s i t
  | push {r : Reg} {t : State} (h : Stored s t) : Effect s (.push r) t
  | pushReti {u t : State} (hu : Stored s u) (h : t.watched = (u.setIpend (u.ipend &&& 0xFFEF#16)).watched) :
      Effect s (.push .reti) t
  | pushMultiple {x : Option DReg} {y : Option (Fin 6)} {t : State} (h : Stored s t) : Effect s (.pushMultiple x y) t
  | popReti {t : State} (h : t.watched = (s.setIpend (s.ipend ||| 0x0010#16)).watched) : Effect s (.pop .reti) t

/-- A protected instruction took the exception of User mode or did what it does outside it (60_exceptions.md R422). -/
theorem Effect.of_supervisorOnly {s t : State} {i : Instr} {o : Outcome} (h : supervisorOnly s o = .next t)
    (ho : o = .next t → Effect s i t) : Effect s i t := by
  unfold supervisorOnly at h
  split at h
  · cases h
    exact .excepts rfl rfl rfl
  · exact ho h

/-- A stack statement or a move took the exception it raises or did what it does (60_exceptions.md R382). -/
theorem Effect.of_outcome {s t : State} {i : Instr} {r : Except Stop State} (h : outcome s r = .next t)
    (hr : RaisesOnly r) (ho : r = .ok t → Effect s i t) : Effect s i t := by
  rcases outcome_cases h with hok | ⟨x, hx, rfl⟩
  · exact ho hok
  · exact .excepts (hr x hx) rfl rfl

/-- A taken transfer from a state with the watched fields of `s`. -/
theorem Effect.of_takeTransfer {s u t : State} {i : Instr} {target : Word} (hu : u.watched = s.watched)
    (h : takeTransfer target u = .next t) : Effect s i t := by
  rw [takeTransfer_next h]
  exact .keeps ((transfer_watched target u).trans hu)

/-- Going on to the next address from a state with the watched fields of `s`. -/
theorem Effect.of_advance {s u t : State} {i : Instr} {len : Word} (hu : u.watched = s.watched)
    (h : (.next (advance len u) : Outcome) = .next t) : Effect s i t := by
  cases h
  exact .keeps ((advance_watched len u).trans hu)

theorem Effect.of_branch {s t : State} {i : Instr} {taken : Bool} {off : BitVec 10} (h : branch taken off s = .next t) :
    Effect s i t := by
  rcases branch_next h with ⟨_, rfl⟩ | ⟨_, rfl⟩
  · exact .keeps (transfer_watched _ s)
  · exact .keeps (advance_watched 2 s)

theorem Effect.of_moveIf {s t : State} {i : Instr} {c : Bool} {dst src : GReg} (h : moveIf c dst src s = .next t) :
    Effect s i t := by
  refine .of_advance ?_ h
  split
  · exact s.setGreg_watched dst _
  · rfl

/-- A return from an event clears bits of IPEND (44_event_instructions.md R294). -/
theorem Effect.of_returnInstr {s t : State} {i : Instr} {own : Fin 16 → Bool} {also : BitVec 16} {target : Word}
    (hi : i = .rti ∨ i = .rtx ∨ i = .rtn ∨ i = .rte) (h : returnInstr own also target s = .next t) : Effect s i t := by
  refine .of_supervisorOnly h fun h => ?_
  split at h
  · split at h
    · rw [takeTransfer_next h]
      exact .returns hi (transfer_watched target _)
    · cases h
  · cases h

theorem raise_effect {n : BitVec 4} {s t : State} (h : execRaise n s = .next t) : Effect s (.raise n) t := by
  refine .of_supervisorOnly h fun h => ?_
  split at h
  · cases h
  · next hn =>
    split at h
    · cases h
    · cases h
      exact .raise (by simpa using hn) (advance_watched 2 _)

theorem push_effect {r : Reg} {s t : State} (h : runPush r s = .ok t) : Effect s (.push r) t := by
  obtain ⟨u, hu, rfl⟩ := runPush_ok h
  have hstored : Stored s u := (Stored.of_watched (afterPushRead_watched r s)).trans (pushWord_stored hu)
  unfold afterPush
  split
  · next hr =>
    subst hr
    exact .pushReti hstored (advance_watched 2 _)
  · exact .push (hstored.trans (.of_watched (advance_watched 2 u)))

/-- What the check of SYSCFG passes has bits 0 and 2 clear (10_state.md R32). -/
theorem checkSyscfg_ok {v : Word} (h : checkSyscfg .syscfg v = .ok ()) : v.getLsbD 0 = false ∧ v.getLsbD 2 = false := by
  unfold checkSyscfg at h
  split at h
  · cases h
  · next hv => simpa using hv

/-- A register written after the check of SYSCFG, by a pop or a move. -/
theorem Effect.of_setReg {s u t : State} {i : Instr} {r : Reg} {v : Word} (hcheck : checkSyscfg r v = .ok ())
    (hu : u.watched = s.watched) (ht : t.watched = (u.setReg r v).watched) : Effect s i t := by
  by_cases hr : r = .syscfg
  · subst hr
    obtain ⟨h0, h2⟩ := checkSyscfg_ok hcheck
    exact .writesSyscfg h0 h2 (ht.trans (State.setSyscfg_watched_congr hu v))
  · exact .keeps (ht.trans ((State.setReg_watched hr u v).trans hu))

theorem pop_effect {r : Reg} {s t : State} (h : runPop r s = .ok t) : Effect s (.pop r) t := by
  obtain ⟨_, _, _, v, _, hcheck, _, rfl⟩ := runPop_ok h
  have hsp := s.setSp_watched (s.sp + 4)
  unfold afterPop
  split
  · next hr =>
    subst hr
    have hreti := (State.setReg_watched (r := .reti) (by decide) (s.setSp (s.sp + 4)) v).trans hsp
    refine .popReti ((finishWrite_watched _ _ _).trans ?_)
    rw [State.setIpend_watched_congr hreti, State.setReg_ipend, State.setSp_ipend]
  · exact .of_setReg hcheck hsp (finishWrite_watched _ _ _)

/-- A move that answers passed the check of SYSCFG (10_state.md R32). -/
theorem runMove_checkSyscfg {dst src : Reg} {s t : State} (h : runMove dst src s = .ok t) :
    checkSyscfg dst (s.reg src) = .ok () := by
  unfold runMove at h
  split at h
  · cases hd : checkRegister dst s <;> cases hs : checkRegister src s <;>
      cases hc : checkSyscfg dst (s.reg src) <;> simp only [hd, hs, hc, bind, Except.bind, reduceCtorEq] at h ⊢
  · cases h

theorem regMove_effect {dst src : Reg} {s t : State} (h : runMove dst src s = .ok t) : Effect s (.regMove dst src) t := by
  obtain ⟨_, _, _, rfl⟩ := runMove_ok h
  exact .of_setReg (runMove_checkSyscfg h) (s.afterRead_watched src) (finishWrite_watched _ _ _)

theorem pushMultiple_effect {x : Option DReg} {y : Option (Fin 6)} {s t : State} (h : runPushMultiple x y s = .ok t) :
    Effect s (.pushMultiple x y) t := by
  unfold runPushMultiple at h
  split at h
  · cases hall : pushAll (multipleRegs x y) s with
    | error e => rw [hall] at h; cases h
    | ok u =>
      rw [hall] at h; cases h
      exact .pushMultiple ((pushAll_stored hall).trans (.of_watched (advance_watched 2 u)))
  · cases h

theorem popMultiple_effect {x : Option DReg} {y : Option (Fin 6)} {s t : State} (h : runPopMultiple x y s = .ok t) :
    Effect s (.popMultiple x y) t := by
  unfold runPopMultiple at h
  split at h
  · cases hall : popAll (multipleRegs x y).reverse s with
    | error e => rw [hall] at h; cases h
    | ok u =>
      rw [hall] at h; cases h
      exact .keeps ((advance_watched 2 u).trans (popAll_watched hall))
  · cases h

/-- What an instruction that answers a state did to the watched fields, by the kinds of instructions. -/
theorem exec_effect {i : Instr} {s t : State} (h : exec i s = .next t) : Effect s i t := by
  cases i with
  | rts | jumpP | jumpPcP | jumpS | jumpL => exact .of_takeTransfer rfl h
  | call | callP | callPcP => exact .of_takeTransfer (s.setRets_watched _) h
  | rti | rtx | rtn | rte => exact .of_returnInstr (by simp) h
  | idle => exact .of_supervisorOnly h (.of_advance (s.setIdle_watched true))
  | cli d =>
    refine .of_supervisorOnly h fun h => ?_
    cases h
    exact .cli (advance_watched 2 _)
  | sti d =>
    refine .of_supervisorOnly h fun h => ?_
    cases h
    exact .sti (advance_watched 2 _)
  | raise n => exact raise_effect h
  | excpt m =>
    cases h
    exact .excepts rfl (advance_watched 2 s) (advance_evt 2 s)
  | ifCcJump | ifNotCcJump => exact .of_branch h
  | lsetup k soff p eoff =>
    obtain ⟨_, _, rfl⟩ := execLsetup_next h
    exact .keeps ((advanceWritten_watched 4 k s _).trans (s.setLoop_watched k _))
  | push r => exact .of_outcome h (runPush_raisesOnly r s) push_effect
  | pop r => exact .of_outcome h (runPop_raisesOnly r s) pop_effect
  | pushMultiple x y => exact .of_outcome h (runPushMultiple_raisesOnly x y s) pushMultiple_effect
  | popMultiple x y => exact .of_outcome h (runPopMultiple_raisesOnly x y s) popMultiple_effect
  | regMove dst src => exact .of_outcome h (runMove_raisesOnly dst src s) regMove_effect
  | ifCcMove | ifNotCcMove => exact .of_moveIf h
  | ccEqD | ccEqDImm | ccLtD | ccLtDImm | ccLeD | ccLeDImm | ccLtuD | ccLtuDImm | ccLeuD | ccLeuDImm =>
    exact .of_advance (s.compareD_watched _) h
  | ccEqP | ccEqPImm | ccLtP | ccLtPImm | ccLeP | ccLePImm | ccLtuP | ccLtuPImm | ccLeuP | ccLeuPImm =>
    exact .of_advance (s.compareP_watched _) h

/-! ## Exceptions -/

/-- An exception is the double fault of a handler or the entry at EVT3, from the state before or after the instruction
(60_exceptions.md R392, R394). -/
theorem takeException_cases (x : Exc) (s done : State) :
    takeException x s done = takeDoubleFault s ∨
      ∃ ret d, (d = s ∨ d = done) ∧ takeException x s done = takeEvent 3 ret (d.setExcause x.code) := by
  unfold takeException
  split
  · exact .inl rfl
  · split
    · exact .inr ⟨done.pc, done, .inr rfl, rfl⟩
    · exact .inr ⟨s.pc, s, .inl rfl, rfl⟩

/-- Of the watched fields an exception changes SEQSTAT, ILAT, IPEND and the double-fault output; it enters at EVT3 if it
changes IPEND, and sets no bit of ILAT. -/
theorem takeException_events {x : Exc} {s done : State} (hd : done.watched = s.watched) (hevt : done.evt = s.evt) :
    (takeException x s done).imask = s.imask ∧
    (∀ b, s.ilat.getLsbD b = false → (takeException x s done).ilat.getLsbD b = false) ∧
    ((takeException x s done).ipend = s.ipend ∨
      (takeException x s done).ipend = s.ipend ||| 0x0008#16 ∧ (takeException x s done).pc = s.evt.get 3) := by
  obtain ⟨-, himask, hilat, hipend, -⟩ := State.watched_eq_iff.1 hd
  rcases takeException_cases x s done with e | ⟨ret, d, hd', e⟩ <;> rw [e]
  · exact ⟨rfl, fun _ => id, .inl rfl⟩
  · rcases hd' with rfl | rfl
    · exact ⟨by simp, fun b hb => by simp [hb], .inr ⟨rfl, rfl⟩⟩
    · refine ⟨by simp [himask], fun b hb => by simp [hilat, hb], .inr ⟨?_, ?_⟩⟩
      · rw [takeEvent_ipend, State.setExcause_ipend, hipend]; rfl
      · rw [takeEvent_pc, State.setExcause_evt, hevt]

/-! ## The statements on IPEND, IMASK and ILAT -/

@[simp] theorem raiseCause_imask (n : BitVec 4) (s : State) : (raiseCause n s).imask = s.imask := by
  unfold raiseCause; split <;> rfl

@[simp] theorem raiseCause_ilat (n : BitVec 4) (s : State) : (raiseCause n s).ilat = s.ilat := by
  unfold raiseCause; split <;> rfl

@[simp] theorem raiseCause_ipend (n : BitVec 4) (s : State) : (raiseCause n s).ipend = s.ipend := by
  unfold raiseCause; split <;> rfl

/-- Latching an event sets its own bit of ILAT and no other (60_exceptions.md R360). -/
theorem State.latchEvent_ilat_getLsbD (s : State) (n b : Nat) :
    (s.latchEvent n).ilat.getLsbD b = (s.ilat.getLsbD b || decide (b = n ∧ n < 16)) := by
  have hbit : (1#16 <<< n).getLsbD b = decide (b = n ∧ n < 16) := by
    rw [← BitVec.twoPow_eq, BitVec.getLsbD_twoPow]
    grind
  show (s.ilat ||| (1#16 <<< n)).getLsbD b = _
  rw [BitVec.getLsbD_or, hbit]

/-- Settles O13: of the effects an instruction can have, those on IPEND are the ones named. -/
theorem onlyEventsChangeIpend : Obligations.OnlyEventsChangeIpend := by
  intro i s t h hne
  cases exec_effect h with
  | excepts _ hd hevt =>
    obtain ⟨_, _, hsame | hentry⟩ := takeException_events hd hevt
    · exact absurd hsame hne
    · exact .inl hentry
  | returns hi _ => rcases hi with rfl | rfl | rfl | rfl <;> simp
  | pushReti => simp
  | popReti => simp
  | keeps h | writesSyscfg _ _ h | cli h | sti h => exact absurd (State.ipend_of_watched h) hne
  | raise _ h => exact absurd ((State.ipend_of_watched h).trans (raiseCause_ipend _ _)) hne
  | push h | pushMultiple h => exact absurd h.ipend hne

/-- Outside CLI, STI and the pushes IMASK is kept (10_state.md R40). -/
theorem Effect.imask {i : Instr} {s t : State} (h : Effect s i t) :
    t.imask = s.imask ∨ (∃ d, i = .cli d) ∨ (∃ d, i = .sti d) ∨ (∃ r, i = .push r) ∨ (∃ x y, i = .pushMultiple x y) := by
  cases h with
  | cli | sti | push | pushReti | pushMultiple => simp
  | excepts _ hd hevt => exact .inl (takeException_events hd hevt).1
  | keeps h | writesSyscfg _ _ h | returns _ h | popReti h => exact .inl ((State.imask_of_watched h).trans rfl)
  | raise _ h => exact .inl ((State.imask_of_watched h).trans (raiseCause_imask _ _))

/-- A bit of ILAT is set by the RAISE of its number alone (10_state.md R41; 44_event_instructions.md R280). -/
theorem Effect.ilat {i : Instr} {s t : State} {b : Nat} (h : Effect s i t) (hs : s.ilat.getLsbD b = false)
    (ht : t.ilat.getLsbD b = true) : ∃ n : BitVec 4, i = .raise n ∧ n.toNat = b := by
  have absent {P : Prop} (h : t.ilat.getLsbD b = false) : P := by rw [ht] at h; cases h
  cases h with
  | excepts _ hd hevt => exact absent ((takeException_events hd hevt).2.1 b hs)
  | keeps h | writesSyscfg _ _ h | cli h | sti h | returns _ h | popReti h =>
    exact absent ((congrArg (·.getLsbD b) (State.ilat_of_watched h)).trans hs)
  | push h | pushMultiple h => exact absent (h.ilat b hs)
  | pushReti hu h => exact absent ((congrArg (·.getLsbD b) (State.ilat_of_watched h)).trans (hu.ilat b hs))
  | @raise n _ _ h =>
    rw [State.ilat_of_watched h, raiseCause_ilat, State.latchEvent_ilat_getLsbD, hs, Bool.false_or, decide_eq_true_eq] at ht
    exact ⟨n, rfl, ht.1.symm⟩

/-- Settles O14, by the effects an instruction can have. -/
theorem whoWritesMaskAndLatch : Obligations.WhoWritesMaskAndLatch := by
  intro i s t h
  have heffect := exec_effect h
  refine ⟨fun hne => ?_, fun b hs ht => heffect.ilat hs ht⟩
  exact heffect.imask.resolve_left hne

end Sys2Proof.Machine

/-! # Every step keeps the invariant -/

namespace Sys2Proof.Machine

/-! ## The invariant by its parts -/

/-- The parts of `State.Inv` under names. -/
structure State.InvParts (s : State) : Prop where
  mem : Memory.wf s.mem = true
  imask : s.imask.extractLsb' 0 5 = 0b11111#5
  ilat3 : s.ilat.getLsbD 3 = false
  ilat4 : s.ilat.getLsbD 4 = false
  ipend0 : s.ipend.getLsbD 0 = false
  seqstatHigh : s.seqstat.extractLsb' 19 13 = 0#13
  seqstatMiddle : s.seqstat.extractLsb' 6 8 = 0#8
  excause : legalExcause s.seqstat = true
  hwErrCause : legalHwErrCause s.seqstat = true
  syscfg0 : s.syscfg.getLsbD 0 = false
  syscfg2 : s.syscfg.getLsbD 2 = false
  isr : s.sic.isr.extractLsb' 24 8 = 0#8
  faultState : s.doubleFault = true → s.seqstat.extractLsb' 0 6 = 0x25#6

theorem State.inv_iff_parts (s : State) : s.Inv ↔ s.InvParts := by
  constructor
  · rintro ⟨hmem, himask, hilat3, hilat4, hipend, hhigh, hmiddle, hexc, hhw, hsys0, hsys2, hisr, hfault⟩
    exact ⟨hmem, himask, hilat3, hilat4, hipend, hhigh, hmiddle, hexc, hhw, hsys0, hsys2, hisr, hfault⟩
  · rintro ⟨hmem, himask, hilat3, hilat4, hipend, hhigh, hmiddle, hexc, hhw, hsys0, hsys2, hisr, hfault⟩
    exact ⟨hmem, himask, hilat3, hilat4, hipend, hhigh, hmiddle, hexc, hhw, hsys0, hsys2, hisr, hfault⟩

/-- The invariant reads the watched fields alone. -/
theorem State.InvParts.of_watched {s t : State} (hs : s.InvParts) (h : t.watched = s.watched) : t.InvParts := by
  obtain ⟨hmem, himask, hilat, hipend, hseqstat, hsyscfg, hisr, hfault⟩ := State.watched_eq_iff.1 h
  rw [← State.inv_iff_parts] at hs ⊢
  unfold State.Inv
  rw [hmem, himask, hilat, hipend, hseqstat, hsyscfg, hisr, hfault]
  exact hs

/-- Stores keep the invariant. -/
theorem State.InvParts.of_stored {s t : State} (hs : s.InvParts) (h : Stored s t) : t.InvParts where
  mem := h.mem hs.mem
  imask := h.imask hs.imask
  ilat3 := h.ilat 3 hs.ilat3
  ilat4 := h.ilat 4 hs.ilat4
  ipend0 := by rw [h.ipend]; exact hs.ipend0
  seqstatHigh := by rw [h.seqstat]; exact hs.seqstatHigh
  seqstatMiddle := by rw [h.seqstat]; exact hs.seqstatMiddle
  excause := by rw [h.seqstat]; exact hs.excause
  hwErrCause := by rw [h.seqstat]; exact hs.hwErrCause
  syscfg0 := by rw [h.syscfg]; exact hs.syscfg0
  syscfg2 := by rw [h.syscfg]; exact hs.syscfg2
  isr := by rw [h.isr]; exact hs.isr
  faultState := by rw [h.doubleFault, h.seqstat]; exact hs.faultState

/-! ## One update at a time -/

theorem State.InvParts.setIpend {s : State} (hs : s.InvParts) {v : BitVec 16} (hv : v.getLsbD 0 = false) :
    (s.setIpend v).InvParts :=
  { hs with ipend0 := hv }

theorem State.InvParts.setIlat {s : State} (hs : s.InvParts) {v : BitVec 16} (h3 : v.getLsbD 3 = false)
    (h4 : v.getLsbD 4 = false) : (s.setIlat v).InvParts :=
  { hs with ilat3 := h3, ilat4 := h4 }

theorem State.InvParts.setSyscfg {s : State} (hs : s.InvParts) {v : Word} (h0 : v.getLsbD 0 = false)
    (h2 : v.getLsbD 2 = false) : (s.setSyscfg v).InvParts :=
  { hs with syscfg0 := h0, syscfg2 := h2 }

theorem State.InvParts.writeImask {s : State} (hs : s.InvParts) (v : Word) : (s.writeImask v).InvParts :=
  { hs with imask := s.writeImask_low v }

theorem State.InvParts.setSic {s : State} (hs : s.InvParts) {c : Sic} (hc : c.isr.extractLsb' 24 8 = 0#8) :
    (s.setSic c).InvParts :=
  { hs with isr := hc }

/-- Latching an event other than 3 and 4 (60_exceptions.md R360). -/
theorem State.InvParts.latchEvent {s : State} (hs : s.InvParts) {n : Nat} (h3 : n ≠ 3) (h4 : n ≠ 4) :
    (s.latchEvent n).InvParts := by
  apply hs.setIlat
  · exact (s.latchEvent_ilat_getLsbD n 3).trans (by rw [hs.ilat3]; simp [h3.symm])
  · exact (s.latchEvent_ilat_getLsbD n 4).trans (by rw [hs.ilat4]; simp [h4.symm])

/-! ## SEQSTAT -/

/-- Codes of EXCAUSE the model's exceptions record, and of the double fault (60_exceptions.md R385, R394). -/
theorem legalExcause_append (hi : BitVec 26) {x : Exc} (hx : x.raisable = true ∨ x = .unrecoverable) :
    legalExcause (hi ++ x.code) = true := by
  have hforced : ∀ m : BitVec 4, legalExcause (0#26 ++ (Exc.forced m).code) = true := by decide
  have hlow (c : BitVec 6) : legalExcause (hi ++ c) = legalExcause (0#26 ++ c) := by
    unfold legalExcause
    rw [BitVec.extractLsb'_append_eq_right, BitVec.extractLsb'_append_eq_right]
  rw [hlow]
  cases x with
  | forced m => exact hforced m
  | _ => revert hx; decide

/-- A field of a field is a field. -/
theorem extractLsb'_of_extractLsb' {w : Nat} (x : BitVec w) {a n start len : Nat} (h : start + len ≤ n) :
    (x.extractLsb' a n).extractLsb' start len = x.extractLsb' (a + start) len := by
  apply BitVec.eq_of_getLsbD_eq
  intro i hi
  have hin : start + i < n := by omega
  simp [hi, hin, Nat.add_assoc]

/-- A write of EXCAUSE keeps the fields of SEQSTAT above it (10_state.md R31). -/
theorem State.setExcause_field (s : State) (c : BitVec 6) {start len : Nat} (h : 6 ≤ start) (hl : start + len ≤ 32) :
    (s.setExcause c).seqstat.extractLsb' start len = s.seqstat.extractLsb' start len := by
  show (s.seqstat.extractLsb' 6 26 ++ c).extractLsb' start len = _
  rw [BitVec.extractLsb'_append_eq_of_le h, extractLsb'_of_extractLsb' _ (by omega), Nat.add_sub_cancel' h]

/-- A write of HWERRCAUSE keeps the other fields of SEQSTAT (10_state.md R31; 60_exceptions.md R411). -/
theorem State.setHwErrCause_fields (s : State) (c : BitVec 5) :
    (s.setHwErrCause c).seqstat.extractLsb' 19 13 = s.seqstat.extractLsb' 19 13 ∧
    (s.setHwErrCause c).seqstat.extractLsb' 14 5 = c ∧
    (s.setHwErrCause c).seqstat.extractLsb' 6 8 = s.seqstat.extractLsb' 6 8 ∧
    (s.setHwErrCause c).seqstat.extractLsb' 0 6 = s.seqstat.extractLsb' 0 6 := by
  have hval : (s.setHwErrCause c).seqstat = s.seqstat.extractLsb' 19 13 ++ c ++ s.seqstat.extractLsb' 0 14 := rfl
  have habove (start len : Nat) (h : 14 ≤ start) : (s.setHwErrCause c).seqstat.extractLsb' start len =
      (s.seqstat.extractLsb' 19 13 ++ c).extractLsb' (start - 14) len := by
    rw [hval, BitVec.extractLsb'_append_eq_of_le h]
  have hbelow (start len : Nat) (h : start + len ≤ 14) : (s.setHwErrCause c).seqstat.extractLsb' start len =
      s.seqstat.extractLsb' start len := by
    rw [hval, BitVec.extractLsb'_append_eq_of_add_le h, BitVec.extractLsb'_extractLsb'_of_le h]
  refine ⟨?_, ?_, hbelow 6 8 (by omega), hbelow 0 6 (by omega)⟩
  · rw [habove 19 13 (by omega)]; exact BitVec.extractLsb'_append_eq_left
  · rw [habove 14 5 (by omega)]; exact BitVec.extractLsb'_append_eq_right

/-- Recording an exception of the model outside the fault state. -/
theorem State.InvParts.setExcause {s : State} (hs : s.InvParts) {x : Exc} (hx : x.raisable = true)
    (hfault : s.doubleFault = false) : (s.setExcause x.code).InvParts where
  __ := hs
  seqstatHigh := (s.setExcause_field _ (by omega) (by omega)).trans hs.seqstatHigh
  seqstatMiddle := (s.setExcause_field _ (by omega) (by omega)).trans hs.seqstatMiddle
  excause := legalExcause_append _ (.inl hx)
  hwErrCause := by
    unfold legalHwErrCause
    rw [s.setExcause_field _ (by omega) (by omega)]
    exact hs.hwErrCause
  faultState h := absurd h (by simp [hfault])

/-- Recording the cause of a hardware error (60_exceptions.md R411). -/
theorem State.InvParts.setHwErrCause {s : State} (hs : s.InvParts) {c : BitVec 5}
    (hc : c ∈ [0b00001, 0b00010, 0b00011, 0b10010, 0b11000]) : (s.setHwErrCause c).InvParts := by
  obtain ⟨hhigh, hcause, hmiddle, hlow⟩ := s.setHwErrCause_fields c
  exact
    { hs with
      seqstatHigh := hhigh.trans hs.seqstatHigh
      seqstatMiddle := hmiddle.trans hs.seqstatMiddle
      excause := by unfold legalExcause; rw [hlow]; exact hs.excause
      hwErrCause := by unfold legalHwErrCause; rw [hcause]; exact decide_eq_true (.tail _ hc)
      faultState := fun h => hlow.trans (hs.faultState h) }

/-! ## Events and exceptions -/

/-- Entry of an event but emulation (60_exceptions.md R400). -/
theorem State.InvParts.takeEvent {s : State} (hs : s.InvParts) {n : Fin 16} (hn : n ≠ 0) (ret : Word) :
    (takeEvent n ret s).InvParts where
  mem := by simpa using hs.mem
  imask := by simpa using hs.imask
  ilat3 := by rw [takeEvent_ilat, BitVec.getLsbD_and, hs.ilat3, Bool.false_and]
  ilat4 := by rw [takeEvent_ilat, BitVec.getLsbD_and, hs.ilat4, Bool.false_and]
  ipend0 := by
    have hentry : ∀ n : Fin 16, n ≠ 0 → (entryBits n).getLsbD 0 = false := by decide
    rw [takeEvent_ipend, BitVec.getLsbD_or, hs.ipend0, hentry n hn, Bool.or_false]
  seqstatHigh := by simpa using hs.seqstatHigh
  seqstatMiddle := by simpa using hs.seqstatMiddle
  excause := by simpa using hs.excause
  hwErrCause := by simpa using hs.hwErrCause
  syscfg0 := by simpa using hs.syscfg0
  syscfg2 := by simpa using hs.syscfg2
  isr := by
    have hisr : (s.sic.acknowledge n).isr = s.sic.isr := by unfold Sic.acknowledge; split <;> rfl
    rw [takeEvent_sic, hisr]
    exact hs.isr
  faultState := by simpa using hs.faultState

/-- The double fault records EXCAUSE 0x25 (60_exceptions.md R394). -/
theorem State.InvParts.takeDoubleFault {s : State} (hs : s.InvParts) : (takeDoubleFault s).InvParts where
  __ := hs
  seqstatHigh := (s.setExcause_field _ (by omega) (by omega)).trans hs.seqstatHigh
  seqstatMiddle := (s.setExcause_field _ (by omega) (by omega)).trans hs.seqstatMiddle
  excause := legalExcause_append _ (.inr rfl)
  hwErrCause := by
    show legalHwErrCause (s.setExcause Exc.unrecoverable.code).seqstat = true
    unfold legalHwErrCause
    rw [s.setExcause_field _ (by omega) (by omega)]
    exact hs.hwErrCause
  faultState _ := BitVec.extractLsb'_append_eq_right

theorem State.InvParts.takeException {s done : State} (hs : s.InvParts) (hfault : s.doubleFault = false)
    {x : Exc} (hx : x.raisable = true) (hd : done.watched = s.watched) : (takeException x s done).InvParts := by
  have hdone : done.doubleFault = false := (congrArg Watched.doubleFault hd).trans hfault
  rcases takeException_cases x s done with e | ⟨ret, d, rfl | rfl, e⟩ <;> rw [e]
  · exact hs.takeDoubleFault
  · exact (hs.setExcause hx hfault).takeEvent (by decide) ret
  · exact ((hs.of_watched hd).setExcause hx hdone).takeEvent (by decide) ret

/-! ## An instruction -/

/-- RAISE latches an event other than 3 and 4, with the cause of RAISE 5 (44_event_instructions.md R281, R283). -/
theorem State.InvParts.raise {s : State} (hs : s.InvParts) {n : BitVec 4} (hn : raiseRefused n = false) :
    (raiseCause n (s.latchEvent n.toNat)).InvParts := by
  have hne : ∀ n : BitVec 4, raiseRefused n = false → n.toNat ≠ 3 ∧ n.toNat ≠ 4 := by decide
  obtain ⟨h3, h4⟩ := hne n hn
  unfold raiseCause
  split
  · exact (hs.latchEvent h3 h4).setHwErrCause (by simp)
  · exact hs.latchEvent h3 h4

/-- Outside the fault state an instruction keeps the invariant. -/
theorem State.InvParts.exec {i : Instr} {s t : State} (hs : s.InvParts) (hfault : s.doubleFault = false)
    (h : exec i s = .next t) : t.InvParts := by
  cases exec_effect h with
  | keeps h => exact hs.of_watched h
  | excepts hx hd _ => exact hs.takeException hfault hx hd
  | writesSyscfg h0 h2 h => exact (hs.setSyscfg h0 h2).of_watched h
  | cli h => exact (hs.writeImask _).of_watched h
  | sti h => exact (hs.writeImask _).of_watched h
  | raise hn h => exact (hs.raise hn).of_watched h
  | returns _ h => exact (hs.setIpend (by rw [BitVec.getLsbD_and, hs.ipend0, Bool.false_and])).of_watched h
  | push h | pushMultiple h => exact hs.of_stored h
  | pushReti hu h =>
    have hup := hs.of_stored hu
    exact (hup.setIpend (by rw [BitVec.getLsbD_and, hup.ipend0, Bool.false_and])).of_watched h
  | popReti h => exact (hs.setIpend (by rw [BitVec.getLsbD_or, hs.ipend0]; rfl)).of_watched h

/-! ## The inputs of a step -/

theorem State.InvParts.latchHwError {s : State} (hs : s.InvParts) (c : Option HwError) : (latchHwError c s).InvParts := by
  cases c with
  | none => exact hs
  | some c => exact (hs.setHwErrCause (by cases c <;> decide)).latchEvent (by decide) (by decide)

theorem State.InvParts.latchWhen {s : State} (hs : s.InvParts) (active : Bool) {n : Nat} (h3 : n ≠ 3) (h4 : n ≠ 4) :
    (latchWhen active n s).InvParts := by
  cases active
  · exact hs
  · exact hs.latchEvent h3 h4

theorem State.InvParts.latchTrst {s : State} (hs : s.InvParts) (active : Bool) : (latchTrst active s).InvParts := by
  cases active
  · exact hs
  · exact hs.setIlat (by rw [BitVec.getLsbD_and, hs.ilat3]; rfl) (by rw [BitVec.getLsbD_and, hs.ilat4]; rfl)

theorem State.InvParts.latchCore {s : State} (hs : s.InvParts) (e : EnvInput) : (latchCore e s).InvParts :=
  ((((hs.latchHwError _).latchWhen _ (by decide) (by decide)).latchWhen _ (by decide) (by decide)).latchWhen _
    (by decide) (by decide)).latchTrst _

/-- 24 request lines leave the high byte of SIC_ISR clear (60_exceptions.md R370). -/
theorem lines_high_clear (lines : BitVec 24) : (lines.setWidth 32).extractLsb' 24 8 = 0#8 := by
  apply BitVec.eq_of_getLsbD_eq
  intro i hi
  simp

theorem Sic.latched_isr (c : Sic) (lines : BitVec 24) (ipend : BitVec 16) (early : BitVec 9) :
    (c.latched lines ipend early).isr = lines.setWidth 32 := rfl

/-- The SIC latches the interrupts 7 to 15 alone (60_exceptions.md R376). -/
theorem State.InvParts.latchSic {s : State} (hs : s.InvParts) (e : EnvInput) : (latchSic e s).InvParts := by
  have hisr : (s.sic.latched e.periph s.ipend e.earlyPulse).isr.extractLsb' 24 8 = 0#8 := by
    rw [Sic.latched_isr]; exact lines_high_clear e.periph
  unfold Machine.latchSic
  refine (hs.setSic hisr).setIlat ?_ ?_
  · rw [BitVec.getLsbD_or, hs.ilat3, BitVec.getLsbD_append]; simp
  · rw [BitVec.getLsbD_or, hs.ilat4, BitVec.getLsbD_append]; simp

theorem State.InvParts.latchInputs {s : State} (hs : s.InvParts) (e : EnvInput) : (latchInputs e s).InvParts :=
  (hs.latchCore e).latchSic e

/-! ## A step -/

theorem State.InvParts.reset : State.reset.InvParts :=
  State.reset.inv_iff_parts.1 (by unfold State.Inv; decide)

theorem State.InvParts.resetState (lines : BitVec 24) (s : State) : (resetState lines s).InvParts :=
  (State.InvParts.reset.setSic (c := { State.reset.sic with isr := lines.setWidth 32 }) (lines_high_clear lines)).of_watched
    rfl

/-- An event that is taken is not emulation (60_exceptions.md R396). -/
theorem State.pendingEvent_ne_zero {s : State} {n : Fin 16} (h : s.pendingEvent = some n) : n ≠ 0 := by
  rintro rfl
  have htake : s.takeable 0 = true := List.find?_some h
  simp [State.takeable] at htake

/-- What the fetch answers without an instruction keeps the invariant. -/
theorem State.InvParts.fetch {s t : State} (hs : s.InvParts) (hfault : s.doubleFault = false)
    (h : fetch s = .error (.next t)) : t.InvParts := by
  unfold Machine.fetch decodePlaced at h
  split at h
  · cases h
    exact hs.takeException hfault rfl rfl
  · split at h
    · split at h <;> cases h
    · cases h

/-- A step is over before the fetch, or what the fetch or the instruction answers. -/
theorem step_cases {s t : State} (h : step s = .next t) :
    prepare s = .error (.next t) ∨
      ∃ u, prepare s = .ok u ∧ (fetch u = .error (.next t) ∨ ∃ i, exec i u = .next t) := by
  unfold step at h
  cases hp : prepare s with
  | error o => rw [hp] at h; exact .inl (congrArg Except.error h)
  | ok u =>
    refine .inr ⟨u, rfl, ?_⟩
    rw [hp] at h
    cases hf : fetch u with
    | error o => simp only [hf] at h; exact .inl (congrArg Except.error h)
    | ok i => simp only [hf] at h; exact .inr ⟨i, h⟩

/-- What a step does before the fetch keeps the invariant, and it reaches the fetch outside the fault state alone. -/
theorem State.InvParts.prepare {s : State} (hs : s.InvParts) :
    (∀ t, prepare s = .error (.next t) → t.InvParts) ∧
      ∀ u, prepare s = .ok u → u.InvParts ∧ u.doubleFault = false := by
  have hlatched : (Machine.latchInputs s.nextInput (s.setEnv s.env.tail)).InvParts :=
    (hs.of_watched (s.setEnv_watched _)).latchInputs _
  have hfaultKept : (Machine.latchInputs s.nextInput (s.setEnv s.env.tail)).doubleFault = s.doubleFault := by simp
  generalize hl : Machine.latchInputs s.nextInput (s.setEnv s.env.tail) = l at hlatched hfaultKept
  have hcases := prepare_cases s
  simp only [hl] at hcases
  rcases hcases with e | ⟨_, e⟩ | ⟨_, _, e⟩ | ⟨hfault, v, hv, hend⟩ | ⟨_, d, e⟩
  case inr.inr.inr.inl =>
    have hwatched : v.watched = l.watched := by rcases hv with rfl | rfl | rfl <;> rfl
    have hvParts := hlatched.of_watched hwatched
    rcases hend with ⟨n, hn, e⟩ | ⟨_, _, e⟩ <;> rw [e]
    · refine ⟨fun t ht => ?_, fun u hu => by cases hu⟩
      cases ht
      exact hvParts.takeEvent (State.pendingEvent_ne_zero hn) _
    · refine ⟨fun t ht => (by cases ht), fun u hu => ?_⟩
      cases hu
      exact ⟨hvParts, (congrArg Watched.doubleFault hwatched).trans (hfaultKept.trans hfault)⟩
  all_goals
    rw [e]
    refine ⟨fun t ht => ?_, fun u hu => by cases hu⟩
    cases ht
  · exact .resetState _ _
  · exact hlatched.of_watched (l.setDraws_watched d)

/-- Settles O8: before the fetch, in the fetch and in the instruction, which run outside the fault state alone. -/
theorem stepKeepsInvariant : Obligations.StepKeepsInvariant := by
  intro s t hinv h
  rw [State.inv_iff_parts] at hinv ⊢
  obtain ⟨hended, hready⟩ := hinv.prepare
  rcases step_cases h with e | ⟨u, hu, hrest⟩
  · exact hended t e
  · obtain ⟨hparts, hfault⟩ := hready u hu
    rcases hrest with hfetch | ⟨i, hexec⟩
    · exact hparts.fetch hfault hfetch
    · exact hparts.exec hfault hexec

end Sys2Proof.Machine

/-! # Registers written and read (10_state.md R21, R24, R35) -/

namespace Sys2Proof.Machine

/-- ASTAT reads as the word written to it (10_state.md R35). -/
theorem astatWord_astatOf (v : Word) : astatWord (astatOf v) = v := by
  unfold astatWord astatOf
  apply BitVec.eq_of_getLsbD_eq
  intro i hi
  simp only [BitVec.getLsbD_append, BitVec.getLsbD_extractLsb', BitVec.getLsbD_ofBool]
  grind

/-- A register reads as it was written, but for SEQSTAT, which discards the write, and the cycle counters, which are draws
(10_state.md R21, R31, R34). -/
theorem State.setReg_reg_same (s : State) {r : Reg} (v : Word) (hseqstat : r ≠ .seqstat) (hcycles : r ≠ .cycles)
    (hcycles2 : r ≠ .cycles2) : (s.setReg r v).reg r = v := by
  cases r with
  | g q => exact s.setGreg_greg q v
  | astat => exact astatWord_astatOf v
  | lc k | lt k | lb k => simp [State.reg, State.setReg]
  | seqstat | cycles | cycles2 => contradiction
  | rets | usp | syscfg | reti | retx | retn | rete => rfl

theorem isGeneral_iff {r : Reg} : isGeneral r = true ↔ ∃ q, r = .g q := by
  cases r <;> simp [isGeneral]

/-- A general register depends on the two files, FP and SP alone. -/
theorem State.greg_congr {s t : State} (hd : t.d = s.d) (hp : t.p = s.p) (hsp : t.sp = s.sp) (hfp : t.fp = s.fp) (q : GReg) :
    t.greg q = s.greg q := by
  rcases q with d | n | _ | _
  · simp only [State.greg, State.dreg, hd]
  · simp only [State.greg, State.preg, hp]
  · exact hsp
  · exact hfp

/-- A write of a register of no file leaves the general registers, but that USP is the stack pointer of User mode (10_state.md
R24). -/
theorem State.setReg_greg {s : State} {r : Reg} {q : GReg} (v : Word) (hr : isGeneral r = false)
    (husp : ¬ (s.mode = .user ∧ q = .p .sp ∧ r = .usp)) : (s.setReg r v).greg q = s.greg q := by
  cases r with
  | g => cases hr
  | usp =>
    rcases q with d | n | _ | _
    case p.sp =>
      have hmode : s.mode ≠ .user := fun h => husp ⟨h, rfl, rfl⟩
      simp [State.greg, State.preg, State.sp, State.setReg, hmode]
    all_goals rfl
  | lc k | lt k | lb k =>
    exact State.greg_congr (by simp [State.setReg]) (by simp [State.setReg])
      (State.sp_congr (by simp) (by simp [State.setReg]) (by simp [State.setReg])) (by simp [State.setReg]) q
  | _ => exact State.greg_congr rfl rfl (State.sp_congr rfl rfl rfl) rfl q

/-- A write of a register of the two files leaves the others, but that SP is USP in User mode (10_state.md R24). -/
theorem State.setGreg_reg {s : State} {r : GReg} {q : Reg} (v : Word) (hq : isGeneral q = false)
    (husp : ¬ (s.mode = .user ∧ q = .usp ∧ r = .p .sp)) : (s.setGreg r v).reg q = s.reg q := by
  cases q with
  | g => cases hq
  | usp =>
    rcases r with d | n | _ | _
    case p.sp =>
      have hmode : s.mode ≠ .user := fun h => husp ⟨h, rfl, rfl⟩
      simp [State.reg, State.setGreg, State.setPreg, hmode]
    all_goals rfl
  | lc k | lt k | lb k => cases k <;> simp [State.reg, State.loop]
  | _ => simp [State.reg]

/-- Of the registers of no file a write changes its own alone (10_state.md R21). -/
theorem State.setReg_reg_special {s : State} {r q : Reg} (v : Word) (hr : isGeneral r = false) (hq : isGeneral q = false)
    (hne : q ≠ r) : (s.setReg r v).reg q = s.reg q := by
  cases r with
  | g => cases hr
  | lc k | lt k | lb k =>
    cases q with
    | g => cases hq
    | lc j | lt j | lb j =>
      by_cases hj : j = k
      · subst hj; simp_all [State.reg, State.setReg]
      · simp [State.reg, State.setReg, hj]
    | _ => simp [State.reg, State.setReg]
  | _ =>
    cases q with
    | g => cases hq
    | _ => first | rfl | contradiction

/-- A write leaves every other register as it reads, but that SP and USP are one register in User mode (10_state.md R21,
R24). -/
theorem State.setReg_reg_of_ne {s : State} {r q : Reg} (v : Word) (hne : q ≠ r)
    (husp : ¬ (s.mode = .user ∧ (q = .usp ∧ r = .g (.p .sp) ∨ q = .g (.p .sp) ∧ r = .usp))) :
    (s.setReg r v).reg q = s.reg q := by
  cases hr : isGeneral r with
  | true =>
    obtain ⟨r, rfl⟩ := isGeneral_iff.1 hr
    cases hq : isGeneral q with
    | true =>
      obtain ⟨q, rfl⟩ := isGeneral_iff.1 hq
      exact s.setGreg_greg_of_ne r q v fun h => hne (congrArg Reg.g h)
    | false =>
      exact State.setGreg_reg v hq fun ⟨hmode, hqusp, hrsp⟩ => husp ⟨hmode, .inl ⟨hqusp, congrArg Reg.g hrsp⟩⟩
  | false =>
    cases hq : isGeneral q with
    | true =>
      obtain ⟨q, rfl⟩ := isGeneral_iff.1 hq
      exact State.setReg_greg v hr fun ⟨hmode, hqsp, hrusp⟩ => husp ⟨hmode, .inr ⟨congrArg Reg.g hqsp, hrusp⟩⟩
    | false => exact State.setReg_reg_special v hr hq hne

/-- Settles O46: the register itself, SEQSTAT, whose write is discarded, and the other registers. -/
theorem registerWriteAndRead : Obligations.RegisterWriteAndRead :=
  fun _ v s => ⟨s.setReg_reg_same v, rfl, fun _ hne husp => State.setReg_reg_of_ne v hne husp⟩

end Sys2Proof.Machine

/-! # Data memory, the registers in memory, and the exceptions of a faulty access (20_memory.md) -/

namespace Sys2Proof.Machine

/-! ## Error exceptions -/

/-- IPEND[0] is clear where no handler of levels 0 to 3 runs (60_exceptions.md R392). -/
theorem State.ipend_zero_of_not_inHandler {s : State} (h : s.inHandler = false) : s.ipend.getLsbD 0 = false := by
  have hlow : s.ipend &&& 0x000F#16 = 0#16 := by simpa [State.inHandler] using h
  simpa using congrArg (·.getLsbD 0) hlow

/-- No handler of levels 0 to 3 runs in User mode (60_exceptions.md R392, R420). -/
theorem State.inHandler_of_user {s : State} (h : s.mode = .user) : s.inHandler = false := by
  have hlow : s.ipend &&& 0x000F#16 = 0#16 := by
    calc s.ipend &&& 0x000F#16 = (s.ipend &&& 0xFFEF#16) &&& 0x000F#16 := by rw [BitVec.and_assoc]; rfl
      _ = 0#16 := by rw [State.user_low h, BitVec.zero_and]
  simp [State.inHandler, hlow]

/-- Event 3 saves the return address in RETX and moves its bit from ILAT to IPEND (60_exceptions.md R400). -/
theorem takeEvent_three (ret : Word) (s : State) :
    takeEvent 3 ret s = ((((s.setRetx ret).setIlat (s.ilat &&& 0xFFF7#16)).setIpend (s.ipend ||| 0x0008#16)).setIdle
      false).setPc (s.evt.get 3) := rfl

/-- The handler of event 3 runs in Supervisor mode (60_exceptions.md R420). -/
theorem takeEvent_three_mode {s : State} (h : s.ipend.getLsbD 0 = false) (ret : Word) :
    (takeEvent 3 ret s).mode = .supervisor := by
  apply State.mode_supervisor
  · rw [takeEvent_ipend, BitVec.getLsbD_or, h]; rfl
  · intro hnone
    have hbit := congrArg (·.getLsbD 3) hnone
    simp [takeEvent_three] at hbit

/-- An error exception outside the handlers is the entry of event 3 with the address of the instruction
(60_exceptions.md R382, R392). -/
theorem takeException_of_error {x : Exc} {s : State} (hout : s.inHandler = false) (herr : x.service = false) (done : State) :
    takeException x s done = takeEvent 3 s.pc (s.setExcause x.code) := by
  simp only [takeException, hout, herr, Bool.false_eq_true, if_false]

/-- Taking an error exception outside the handlers has the effects `tookError` names and no other (60_exceptions.md R382, R392,
R400). -/
theorem tookError_takeException {x : Exc} {s : State} (hout : s.inHandler = false) (herr : x.service = false) (done : State) :
    tookError x.code s (takeException x s done) := by
  have hmode : (takeEvent 3 s.pc (s.setExcause x.code)).mode = .supervisor := by
    apply takeEvent_three_mode
    rw [State.setExcause_ipend]
    exact State.ipend_zero_of_not_inHandler hout
  rw [takeException_of_error hout herr]
  rw [takeEvent_three] at hmode ⊢
  refine ⟨rfl, rfl, rfl, rfl, rfl, rfl, hmode, rfl, rfl, rfl, ?loops, ?entry⟩
  case loops => simp [keepsLoops]
  case entry => simp [keepsAtEntry, keepsGeneral, keepsConfig, keepsMemory, State.dataByte]

/-- An instruction that ends in an error exception outside the handlers takes it. -/
theorem outcome_tookError {x : Exc} {s : State} (hout : s.inHandler = false) (herr : x.service = false) :
    ∃ t, outcome s (.error (.exc x)) = .next t ∧ tookError x.code s t :=
  ⟨takeException x s s, rfl, tookError_takeException hout herr s⟩

/-- At an odd pc the fetch ends in the exception 0x2A (20_memory.md R90; 41_jumps_calls.md R208). -/
theorem fetch_of_odd {s : State} (hodd : s.pc.getLsbD 0 = true) :
    fetch s = .error (.next (takeException .fetchMisaligned s s)) := by
  rw [fetch, if_pos hodd]

/-- Settles O6: the step ends with the fetch, in the error exception 0x2A. -/
theorem oddFetchRaises : Obligations.OddFetchRaises := by
  intro s t hprep hodd hout
  exact ⟨_, step_of_fetch_error hprep (fetch_of_odd hodd), tookError_takeException hout rfl t⟩

/-! ## What an access reaches -/

/-- A misaligned access raises 0x24 (20_memory.md R86). -/
theorem accessTarget_of_misaligned {a : Word} (h : a.extractLsb' 0 2 ≠ 0#2) (s : State) :
    accessTarget a s = .error (.exc .dataMisaligned) := by
  rw [accessTarget, if_pos h]

/-- The addresses of registers are word addresses (20_memory.md R92). -/
theorem aligned_of_mmrAt {a : Word} {m : Mmr} (h : mmrAt a = some m) : a.extractLsb' 0 2 = 0#2 := by
  unfold mmrAt at h
  split_ifs at h with hevt
  · exact hevt.2
  all_goals subst a; rfl

/-- An access at the address of a register raises 0x23 in User mode and else reaches the register (20_memory.md R94, R95;
log 35). -/
theorem accessTarget_of_mmrAt {a : Word} {m : Mmr} (h : mmrAt a = some m) (s : State) :
    accessTarget a s = if s.mode = .user then .error (.exc .dataProtection) else .ok (some m) := by
  rw [accessTarget, if_neg (not_not_intro (aligned_of_mmrAt h)), h]

/-- An access in User mode at the address of a register raises 0x23 (20_memory.md R95). -/
theorem accessTarget_user_register {a : Word} {s : State} (hmode : s.mode = .user) (h : (mmrAt a).isSome = true) :
    accessTarget a s = .error (.exc .dataProtection) := by
  obtain ⟨m, hm⟩ := Option.isSome_iff_exists.1 h
  rw [accessTarget_of_mmrAt hm, if_pos hmode]

/-- An access that touches a byte of PROGRAM is refused (20_memory.md R81; log 5). -/
theorem accessTarget_of_isProgram {a : Word} {s : State} (halign : a.extractLsb' 0 2 = 0#2) (hmmr : mmrAt a = none)
    (hprog : ∃ i : Fin 4, s.isProgram (a.toNat + i.val) = true) :
    accessTarget a s = .error (.refusal .programAccess) := by
  rw [accessTarget, if_neg (not_not_intro halign), hmmr]
  have hany : (s.isProgram a.toNat || s.isProgram (a.toNat + 1) || s.isProgram (a.toNat + 2) || s.isProgram (a.toNat + 3)) =
      true := by
    simpa [Fin.exists_fin_succ, or_assoc] using hprog
  simp only [hany, if_true]

/-- An access that touches no byte of PROGRAM and a byte outside data memory is stuck (20_memory.md R98). -/
theorem accessTarget_of_not_isRam {a : Word} {s : State} (halign : a.extractLsb' 0 2 = 0#2) (hmmr : mmrAt a = none)
    (hprog : ∀ i : Fin 4, s.isProgram (a.toNat + i.val) = false) (hram : ∃ i : Fin 4, s.isRam (a.toNat + i.val) = false) :
    accessTarget a s = .error (.fault .unmappedData) := by
  rw [accessTarget, if_neg (not_not_intro halign), hmmr]
  have hnone : (s.isProgram a.toNat || s.isProgram (a.toNat + 1) || s.isProgram (a.toNat + 2) || s.isProgram (a.toNat + 3)) =
      false := by
    simpa [Fin.forall_fin_succ, and_assoc] using hprog
  have hhole : (s.isRam a.toNat && s.isRam (a.toNat + 1) && s.isRam (a.toNat + 2) && s.isRam (a.toNat + 3)) = false := by
    simpa [Fin.exists_fin_succ, or_assoc, ← Bool.not_eq_true, imp_iff_not_or] using hram
  simp only [hnone, hhole, Bool.false_eq_true, if_false]

/-! ## Reads and writes -/

theorem memRead_of_error {a : Word} {s : State} {e : Stop} (h : accessTarget a s = .error e) : memRead a s = .error e := by
  rw [memRead, h]

theorem memWrite_of_error {a : Word} {s : State} {e : Stop} (h : accessTarget a s = .error e) (v : Word) :
    memWrite a v s = .error e := by
  rw [memWrite, h]

/-- Outside User mode a read at the address of a register reads the register (20_memory.md R94). -/
theorem memRead_of_mmrAt {a : Word} {m : Mmr} {s : State} (h : mmrAt a = some m) (hmode : s.mode ≠ .user) :
    memRead a s = .ok (mmrRead m s) := by
  rw [memRead, accessTarget_of_mmrAt h, if_neg hmode]

/-- Outside User mode a write at the address of a register writes the register (20_memory.md R94). -/
theorem memWrite_of_mmrAt {a : Word} {m : Mmr} {s : State} (h : mmrAt a = some m) (hmode : s.mode ≠ .user) (v : Word) :
    memWrite a v s = mmrWrite m v s := by
  rw [memWrite, accessTarget_of_mmrAt h, if_neg hmode]

/-- A read where a word of data memory is (20_memory.md R81, R84). -/
theorem memRead_of_holdsWord {a : Word} {s : State} (h : s.holdsWord a) : memRead a s = .ok (s.dataWord a.toNat) := by
  rw [memRead, State.holdsWord_target h]

/-- A write where a word of data memory is (20_memory.md R81, R84). -/
theorem memWrite_of_holdsWord {a : Word} {s : State} (h : s.holdsWord a) (v : Word) :
    memWrite a v s = .ok (s.setDataWord a.toNat v) := by
  rw [memWrite, State.holdsWord_target h]

/-- A store does not change which addresses hold a word of data memory (20_memory.md R81). -/
theorem State.setDataWord_holdsWord {a : Word} {s : State} (h : s.holdsWord a) (b : Nat) (v : Word) :
    (s.setDataWord b v).holdsWord a := h

/-- Settles O44: the store is `setDataWord`, whose word, bytes and frame the laws of memory give. -/
theorem wordStoreAndLoad : Obligations.WordStoreAndLoad := by
  intro a v s h
  refine ⟨s.setDataWord a.toNat v, memWrite_of_holdsWord h v, ?read, ?bytes, ?frame⟩
  case read => rw [memRead_of_holdsWord (State.setDataWord_holdsWord h _ v), State.setDataWord_dataWord]
  case bytes => exact fun i => s.setDataWord_byte a.toNat v i.val i.isLt
  case frame => exact fun b hb => s.setDataWord_outside a.toNat v hb

/-! ## The registers in memory -/

/-- The event vectors stand at consecutive words from 0xFFE02000 (20_memory.md R92). -/
theorem mmrAt_evt (n : Fin 16) : mmrAt (0xFFE02000#32 + BitVec.ofNat 32 (4 * n.val)) = some (.evt n) := by
  revert n
  decide

/-- A write of IMASK takes bits 15..5 and sets bits 4..0 (10_state.md R40). -/
theorem State.writeImask_eq (s : State) (v : Word) :
    s.writeImask v = s.setImask ((v.setWidth 16 &&& 0xFFE0#16) ||| 0x001F#16) := by
  have hvalue : v.extractLsb' 5 11 ++ 0b11111#5 = (v.setWidth 16 &&& 0xFFE0#16) ||| 0x001F#16 := by
    apply BitVec.eq_of_getLsbD_eq
    intro i hi
    simp only [BitVec.getLsbD_append, BitVec.getLsbD_extractLsb', BitVec.getLsbD_or, BitVec.getLsbD_and,
      BitVec.getLsbD_setWidth]
    interval_cases i <;> simp
  rw [State.writeImask, hvalue]

/-- A write of ILAT clears the bits written 1, and is refused where one of them is enabled (60_exceptions.md R365). -/
theorem mmrWrite_ilat (v : Word) (s : State) :
    mmrWrite .ilat v s = if v.setWidth 16 &&& s.imask &&& 0xFFE0#16 = 0#16
      then .ok (s.setIlat (s.ilat &&& ~~~(v.setWidth 16 &&& 0xFFE0#16))) else .error (.refusal .ilatClearEnabled) := by
  have hmask : ilatClearMask v &&& s.imask = v.setWidth 16 &&& s.imask &&& 0xFFE0#16 := by
    rw [ilatClearMask, BitVec.and_assoc, BitVec.and_comm (0xFFE0#16), BitVec.and_assoc]
  rw [← hmask]
  exact ite_not ..

/-- A source is unmasked where SIC_IMASK[23:0] is not 0 (60_exceptions.md R378). -/
theorem Sic.anyUnmasked_eq_false_iff (c : Sic) : c.anyUnmasked = false ↔ c.imask &&& 0x00FFFFFF#32 = 0#32 := by
  have hlow : (c.imask &&& 0x00FFFFFF#32).toNat = (c.imask.extractLsb' 0 24).toNat := by
    rw [BitVec.toNat_and, BitVec.extractLsb'_toNat, Nat.shiftRight_zero]
    exact Nat.and_two_pow_sub_one_eq_mod c.imask.toNat 24
  rw [Sic.anyUnmasked, decide_eq_false_iff_not, not_not, ← BitVec.toNat_inj, ← BitVec.toNat_inj, hlow]
  rfl

/-- A configuration register of the SIC is written only while every source is masked (60_exceptions.md R378). -/
theorem sicConfigure_eq (s : State) (c : Sic) :
    sicConfigure s c = if s.sic.imask &&& 0x00FFFFFF#32 = 0#32 then .ok (s.setSic c)
      else .error (.refusal .sicConfigUnmasked) := by
  rw [sicConfigure]
  by_cases h : s.sic.imask &&& 0x00FFFFFF#32 = 0#32
  · rw [if_pos h, (Sic.anyUnmasked_eq_false_iff _).2 h]; rfl
  · rw [if_neg h, if_pos (by simpa [← Sic.anyUnmasked_eq_false_iff] using h)]

/-- Settles O45: each address is that of its register, and a read and a write do what the spec says of it. -/
theorem registersInMemory : Obligations.RegistersInMemory := by
  intro a v s hmode
  have hreach : ∀ {m}, mmrAt a = some m → memRead a s = .ok (mmrRead m s) ∧ memWrite a v s = mmrWrite m v s :=
    fun h => ⟨memRead_of_mmrAt h hmode, memWrite_of_mmrAt h hmode v⟩
  refine ⟨?evt, ?imask, ?ipend, ?ilat, ?sicImask, ?sicIsr, ?iar0, ?iar1, ?iar2, ?iwr⟩
  case evt =>
    rintro n rfl
    exact hreach (mmrAt_evt n)
  case imask =>
    rintro rfl
    rw [← State.writeImask_eq]
    exact hreach (m := .imask) rfl
  case ilat =>
    rintro rfl
    rw [← mmrWrite_ilat]
    exact hreach (m := .ilat) rfl
  case ipend | sicImask | sicIsr =>
    rintro rfl
    exact hreach rfl
  case iar0 | iar1 | iar2 | iwr =>
    rintro rfl
    beta_reduce
    rw [← sicConfigure_eq]
    exact hreach rfl

/-! ## The stack statements and their first access -/

/-- Reading the value to push moves no stack pointer. -/
theorem afterPushRead_sp (r : Reg) (s : State) : (afterPushRead r s).sp = s.sp := by
  obtain ⟨hmode, hssp, husp, -⟩ := afterPushRead_keeps r s
  exact State.sp_congr hmode hssp husp

/-- Reading the value to push does not change what an address reaches. -/
theorem accessTarget_afterPushRead (a : Word) (r : Reg) (s : State) :
    accessTarget a (afterPushRead r s) = accessTarget a s := by
  obtain ⟨hmode, -, -, hplat, -⟩ := afterPushRead_keeps r s
  exact accessTarget_congr a hmode hplat

theorem pushWord_of_error {s : State} {e : Stop} (h : accessTarget (s.sp - 4) s = .error e) (v : Word) :
    pushWord v s = .error e := by
  rw [pushWord, memWrite_of_error h, Except.map]

theorem popWord_of_error {s : State} {e : Stop} (h : accessTarget s.sp s = .error e) : popWord s = .error e := by
  rw [popWord, memRead_of_error h, Except.map]

/-- A push of a register the mode may name is a store at SP - 4, SP written, the effect on IPEND, and the next address
(40_stack_and_moves.md R160, R161). -/
theorem runPush_eq {r : Reg} {s : State} (hr : ¬ (s.mode = .user ∧ supervisorReg r = true)) :
    runPush r s = (memWrite (s.sp - 4) (pushValue r s) (afterPushRead r s)).map
      fun t => advance 2 (afterPush r (t.setSp (s.sp - 4))) := by
  rw [runPush, show checkRegister r s = .ok () from if_neg hr, pushWord, afterPushRead_sp]
  cases memWrite (s.sp - 4) (pushValue r s) (afterPushRead r s) <;> rfl

/-- A multiple push or pop with a list names a register (40_stack_and_moves.md R166). -/
theorem multipleRegs_ne_nil {x : Option DReg} {y : Option (Fin 6)} (h : (x.isSome || y.isSome) = true) :
    multipleRegs x y ≠ [] := by
  cases x with
  | some i =>
    have hlast : i ≤ 7 := Fin.le_last i
    exact List.ne_nil_of_mem (a := .d 7) (by simp [multipleRegs, hlast])
  | none =>
    cases y with
    | some j =>
      have hlast : j ≤ 5 := Fin.le_last j
      exact List.ne_nil_of_mem (a := .p (.p 5)) (by simp [multipleRegs, hlast])
    | none => cases h

theorem pushAll_of_error {rs : List GReg} {s : State} {e : Stop} (hne : rs ≠ [])
    (h : accessTarget (s.sp - 4) s = .error e) : pushAll rs s = .error e := by
  cases rs with
  | nil => exact absurd rfl hne
  | cons r rs => rw [pushAll, pushWord_of_error h]; rfl

theorem popAll_of_error {rs : List GReg} {s : State} {e : Stop} (hne : rs ≠ [])
    (h : accessTarget s.sp s = .error e) : popAll rs s = .error e := by
  cases rs with
  | nil => exact absurd rfl hne
  | cons r rs => rw [popAll, popWord_of_error h]; rfl

/-- The stack statements that pass the checks before their first access, with its address: SP - 4 of a push, SP of a pop
(40_stack_and_moves.md R160, R163, R166, R167). -/
inductive FirstAccess (s : State) : Instr → Word → Prop where
  | push {r : Reg} (hr : ¬ (s.mode = .user ∧ supervisorReg r = true)) : FirstAccess s (.push r) (s.sp - 4)
  | pop {r : Reg} (hpop : popAdmitted r = true) (hwrite : s.admitsWrite r = true)
      (hr : ¬ (s.mode = .user ∧ supervisorReg r = true)) : FirstAccess s (.pop r) s.sp
  | pushMultiple {x : Option DReg} {y : Option (Fin 6)} (h : (x.isSome || y.isSome) = true) :
      FirstAccess s (.pushMultiple x y) (s.sp - 4)
  | popMultiple {x : Option DReg} {y : Option (Fin 6)} (h : (x.isSome || y.isSome) = true) :
      FirstAccess s (.popMultiple x y) s.sp

/-- A stack statement whose first access stops ends as the access does (40_stack_and_moves.md R160 to R167). -/
theorem FirstAccess.exec_of_error {s : State} {i : Instr} {a : Word} {e : Stop} (hi : FirstAccess s i a)
    (ha : accessTarget a s = .error e) : exec i s = outcome s (.error e) := by
  cases hi with
  | @push r hr =>
    have hstore := memWrite_of_error ((accessTarget_afterPushRead (s.sp - 4) r s).trans ha) (pushValue r s)
    refine congrArg (outcome s) ?_
    rw [runPush_eq hr, hstore, Except.map]
  | pop hpop hwrite hr =>
    refine congrArg (outcome s) ?_
    rw [runPop, if_pos (by rw [hpop, hwrite]; rfl), show checkRegister _ s = .ok () from if_neg hr, popWord_of_error ha]
    rfl
  | pushMultiple h =>
    refine congrArg (outcome s) ?_
    rw [runPushMultiple, if_pos h, pushAll_of_error (multipleRegs_ne_nil h) ha, Except.map]
  | popMultiple h =>
    refine congrArg (outcome s) ?_
    rw [runPopMultiple, if_pos h, popAll_of_error (by simpa using multipleRegs_ne_nil h) ha, Except.map]

/-- A stack statement whose first access raises an exception, outside the handlers, takes it and does nothing else
(60_exceptions.md R382, R388). -/
theorem FirstAccess.exec_tookError {s : State} {i : Instr} {a : Word} {x : Exc} (hi : FirstAccess s i a)
    (ha : accessTarget a s = .error (.exc x)) (hout : s.inHandler = false) (herr : x.service = false) :
    ∃ t, exec i s = .next t ∧ tookError x.code s t := by
  rw [hi.exec_of_error ha]
  exact outcome_tookError hout herr

/-- The address of a push is as aligned as SP (20_memory.md R86). -/
theorem extractLsb'_sub_four (a : Word) : (a - 4).extractLsb' 0 2 = a.extractLsb' 0 2 := by
  apply BitVec.eq_of_toNat_eq
  have hfour : (4 : Word).toNat = 4 := rfl
  simp only [BitVec.extractLsb'_toNat, Nat.shiftRight_zero, BitVec.toNat_sub, hfour]
  omega

/-- Settles O22: whichever the stack statement, its first access is misaligned. -/
theorem misalignedStackRaises : Obligations.MisalignedStackRaises := by
  intro s hsp hout
  have hpush : accessTarget (s.sp - 4) s = .error (.exc .dataMisaligned) :=
    accessTarget_of_misaligned (by rwa [extractLsb'_sub_four]) s
  have hpop : accessTarget s.sp s = .error (.exc .dataMisaligned) := accessTarget_of_misaligned hsp s
  exact ⟨fun r hr => (FirstAccess.push hr).exec_tookError hpush hout rfl,
    fun r hadm hwrite hr => (FirstAccess.pop hadm hwrite hr).exec_tookError hpop hout rfl,
    fun x y h => ⟨(FirstAccess.pushMultiple h).exec_tookError hpush hout rfl,
      (FirstAccess.popMultiple h).exec_tookError hpop hout rfl⟩⟩

/-- Settles O23: the access at the address ends in the exception, alone and as the first of a stack statement. -/
theorem userModeIsRefusedRegistersInMemory : Obligations.UserModeIsRefusedRegistersInMemory := by
  intro a v s hmode
  have hout := State.inHandler_of_user hmode
  have hprotected : ∀ {r}, supervisorReg r = false → ¬ (s.mode = .user ∧ supervisorReg r = true) := by
    rintro r hr ⟨-, h⟩
    rw [hr] at h
    cases h
  refine ⟨fun hreg => ?register, fun hmis => ?misaligned, fun hreg hsp => ?pushes, fun hreg hsp => ?pops⟩
  case register =>
    have ha := accessTarget_user_register hmode hreg
    exact ⟨memRead_of_error ha, memWrite_of_error ha v⟩
  case misaligned =>
    have ha := accessTarget_of_misaligned hmis s
    exact ⟨memRead_of_error ha, memWrite_of_error ha v⟩
  case pushes =>
    have ha : accessTarget (s.sp - 4) s = .error (.exc .dataProtection) := by
      rw [hsp, BitVec.add_sub_cancel]
      exact accessTarget_user_register hmode hreg
    exact ⟨fun r hr => (FirstAccess.push (hprotected hr)).exec_tookError ha hout rfl,
      fun x y h => (FirstAccess.pushMultiple h).exec_tookError ha hout rfl⟩
  case pops =>
    subst hsp
    have ha := accessTarget_user_register hmode hreg
    exact ⟨fun r hadm hwrite hr => (FirstAccess.pop hadm hwrite (hprotected hr)).exec_tookError ha hout rfl,
      fun x y h => (FirstAccess.popMultiple h).exec_tookError ha hout rfl⟩

/-- Settles O54: the first access of the push and of the pop is refused where a byte of PROGRAM is, and else stuck. -/
theorem stackOutsideDataMemoryStops : Obligations.StackOutsideDataMemoryStops := by
  intro r s a hr halign hmmr
  have hends : ∀ {e}, accessTarget a s = .error e →
      (s.sp - 4 = a → exec (.push r) s = outcome s (.error e)) ∧
      (s.sp = a → popAdmitted r = true → s.admitsWrite r = true → exec (.pop r) s = outcome s (.error e)) := by
    intro e ha
    constructor
    · rintro rfl
      exact (FirstAccess.push hr).exec_of_error ha
    · rintro rfl hadm hwrite
      exact (FirstAccess.pop hadm hwrite hr).exec_of_error ha
  exact ⟨fun hprog => hends (accessTarget_of_isProgram halign hmmr hprog),
    fun hprog hram => hends (accessTarget_of_not_isRam halign hmmr hprog hram)⟩

/-! ## A push onto an event vector -/

/-- Going on moves no stack pointer. -/
@[simp] theorem advance_sp (len : Word) (s : State) : (advance len s).sp = s.sp :=
  State.sp_congr (by simp) (by simp) (by simp)

/-- The effect of a push on IPEND moves no stack pointer (40_stack_and_moves.md R161). -/
@[simp] theorem afterPush_sp (r : Reg) (s : State) : (afterPush r s).sp = s.sp :=
  State.sp_congr (afterPush_mode r s) (by simp [afterPush_setIpend]) (by simp [afterPush_setIpend])

/-- A push outside User mode at the address of an event vector writes the vector with the value pushed (20_memory.md R94;
40_stack_and_moves.md R160). -/
theorem exec_push_evt {r : Reg} {n : Fin 16} {s : State} (hmode : s.mode ≠ .user)
    (hsp : s.sp - 4 = 0xFFE02000#32 + BitVec.ofNat 32 (4 * n.val)) :
    exec (.push r) s =
      .next (advance 2 (afterPush r (((afterPushRead r s).setEvt n (pushValue r s)).setSp (s.sp - 4)))) := by
  obtain ⟨hkeep, -⟩ := afterPushRead_keeps r s
  have hstore : memWrite (s.sp - 4) (pushValue r s) (afterPushRead r s) =
      .ok ((afterPushRead r s).setEvt n (pushValue r s)) :=
    memWrite_of_mmrAt (hsp ▸ mmrAt_evt n) (by rwa [hkeep]) _
  show outcome s (runPush r s) = _
  rw [runPush_eq fun h => hmode h.1, hstore]
  rfl

/-- Settles O48: the push is a write of the vector, and of SP, IPEND, pc and the loop units. -/
theorem pushReachesEventVectors : Obligations.PushReachesEventVectors := by
  intro r n s hmode hsp
  obtain ⟨-, -, -, -, hmem, hepoch, ⟨-, -, -, -, -, ⟨himask, hilat, -, hevt, hsic⟩, -⟩, -, -, hpc, hloop0, hloop1⟩ :=
    afterPushRead_keeps r s
  refine ⟨_, exec_push_evt hmode hsp, by simp, ?_⟩
  rw [afterPush_setIpend]
  refine ⟨fun hr => ?vector, fun m hm => ?others, ?memory, ?imask, ?ilat, ?sic, ?next⟩
  case vector => simp [Vector.get_eq_getElem, pushValue, hr]
  case others =>
    have hne : n.val ≠ m.val := fun h => hm (Fin.ext h).symm
    simp [Vector.get_eq_getElem, hne, hevt]
  case memory => exact fun b => State.dataByte_congr (by simp [hmem]) (by simp [hepoch]) b
  case imask => simp [himask]
  case ilat => simp [hilat]
  case sic => simp [hsic]
  case next => exact goesOn_advance 2 _ s (by simp [hpc]) (by simp [hloop0]) (by simp [hloop1])

end Sys2Proof.Machine

/-! # The encoding: a statement and its half-words determine one another (30_encoding.md R122 to R133, R140) -/

namespace Sys2Proof

/-! ## Register numbers (R131, R132) -/

@[simp] theorem dregOf_dregCode (r : DReg) : dregOf (dregCode r) = r := rfl

@[simp] theorem dregCode_dregOf (c : BitVec 3) : dregCode (dregOf c) = c := rfl

@[simp] theorem pregOf_pregCode (p : PReg) : pregOf (pregCode p) = p := by
  cases p with
  | p n => revert n; decide
  | sp | fp => rfl

@[simp] theorem pregCode_pregOf (c : BitVec 3) : pregCode (pregOf c) = c := by
  revert c
  decide

theorem dregOf_eq_iff {c : BitVec 3} {r : DReg} : dregOf c = r ↔ c = dregCode r := by
  constructor <;> (rintro rfl; rfl)

theorem pregOf_eq_iff {c : BitVec 3} {p : PReg} : pregOf c = p ↔ c = pregCode p := by
  constructor <;> (rintro rfl; simp)

/-- A register of the R or the P file has one file bit and number (R131). -/
theorem gregOf_eq_iff {file : Bool} {c : BitVec 3} {g : GReg} : gregOf file c = g ↔ file = gregFile g ∧ c = gregCode g := by
  cases file <;> cases g <;> simp [gregOf, gregFile, gregCode, dregOf_eq_iff, pregOf_eq_iff]

/-- A register has one group and number (R132). -/
theorem regOf_eq_some_iff {grp num : BitVec 3} {r : Reg} :
    regOf grp num = some r ↔ grp = (regCode r).1 ∧ num = (regCode r).2 := by
  constructor
  · have hlisted : ∀ grp num, ∀ r ∈ regOf grp num, grp = (regCode r).1 ∧ num = (regCode r).2 := by decide
    exact hlisted grp num r
  · rintro ⟨rfl, rfl⟩
    cases r with
    | g g =>
      cases g with
      | d r => rfl
      | p r => exact congrArg (fun p => some (Reg.g (.p p))) (pregOf_pregCode r)
    | lc k | lt k | lb k => cases k <;> rfl
    | _ => rfl

theorem loopOf_eq_iff {c : Bool} {k : LoopIdx} : loopOf c = k ↔ c = loopBit k := by
  cases c <;> cases k <;> decide

/-- The data list of a multiple push or pop has one presence bit and one field (R129). -/
theorem multipleD_eq_some_iff {present : Bool} {c : BitVec 3} {x : Option DReg} :
    multipleD present c = some x ↔ present = x.isSome ∧ c = x.elim 0#3 dregCode := by
  revert present c x
  decide

/-- The pointer list of a multiple push or pop has one presence bit and one field (R129). -/
theorem multipleP_eq_some_iff {present : Bool} {c : BitVec 3} {y : Option (Fin 6)} :
    multipleP present c = some y ↔ present = y.isSome ∧ c = y.elim 0#3 (fun j => BitVec.ofNat 3 j.val) := by
  revert present c y
  decide

/-! ## The fields of a word -/

/-- A word is put together from its upper and its lower field. -/
theorem eq_append_iff (m n : Nat) {x : BitVec m} {y : BitVec n} {w : BitVec (m + n)} :
    w = x ++ y ↔ w.extractLsb' n m = x ∧ w.extractLsb' 0 n = y := by
  constructor
  · rintro rfl
    exact ⟨BitVec.extractLsb'_append_eq_left, BitVec.extractLsb'_append_eq_right⟩
  · rintro ⟨rfl, rfl⟩
    exact BitVec.extractLsb'_append_extractLsb'.symm

/-- A field of one bit is that bit. -/
theorem extractLsb'_one_eq_ofBool_iff {n i : Nat} {w : BitVec n} {b : Bool} :
    w.extractLsb' i 1 = BitVec.ofBool b ↔ w.getLsbD i = b := by
  rw [BitVec.getLsbD_eq_extractLsb']
  generalize w.extractLsb' i 1 = c
  revert b c
  decide

theorem extractLsb'_one_eq_zero_iff {n i : Nat} {w : BitVec n} : w.extractLsb' i 1 = 0#1 ↔ w.getLsbD i = false :=
  extractLsb'_one_eq_ofBool_iff (b := false)

/-! ## The fields of each format -/

/-- Format ProgCtrl (R123). -/
theorem eq_progCtrl_iff {w : Half} {func low : BitVec 4} :
    w = progCtrl func low ↔ w.extractLsb' 8 8 = 0#8 ∧ w.extractLsb' 4 4 = func ∧ w.extractLsb' 0 4 = low := by
  rw [progCtrl, eq_append_iff 12 4, eq_append_iff 8 4]
  simp [Machine.extractLsb'_of_extractLsb', and_assoc]

/-- Format ProgCtrl with a register in its low three bits (R123). -/
theorem eq_progCtrl_reg_iff {w : Half} {func : BitVec 4} {c : BitVec 3} : w = progCtrl func (0#1 ++ c) ↔
    w.extractLsb' 8 8 = 0#8 ∧ w.extractLsb' 4 4 = func ∧ w.getLsbD 3 = false ∧ w.extractLsb' 0 3 = c := by
  rw [eq_progCtrl_iff, eq_append_iff 1 3]
  simp [Machine.extractLsb'_of_extractLsb', extractLsb'_one_eq_zero_iff]

/-- Format PushPopReg, its register as the decoder reads it (R128). -/
theorem eq_pushPopWord_iff {w : Half} {dir : Bool} {r : Reg} : w = pushPopWord dir r ↔
    w.extractLsb' 8 8 = 1#8 ∧ w.getLsbD 7 = false ∧ w.getLsbD 6 = dir ∧
      regOf (w.extractLsb' 3 3) (w.extractLsb' 0 3) = some r := by
  rw [regOf_eq_some_iff, pushPopWord, show 0b000000010#9 = 1#8 ++ 0#1 from rfl, eq_append_iff 13 3, eq_append_iff 10 3,
    eq_append_iff 9 1, eq_append_iff 8 1]
  simp [Machine.extractLsb'_of_extractLsb', extractLsb'_one_eq_ofBool_iff, extractLsb'_one_eq_zero_iff, and_assoc]

/-- Format PushPopMultiple, its lists as the decoder reads them (R129). -/
theorem eq_multipleWord_iff {w : Half} {dir : Bool} {x : Option DReg} {y : Option (Fin 6)} : w = multipleWord dir x y ↔
    w.extractLsb' 9 7 = 2#7 ∧ w.getLsbD 6 = dir ∧ multipleD (w.getLsbD 8) (w.extractLsb' 3 3) = some x ∧
      multipleP (w.getLsbD 7) (w.extractLsb' 0 3) = some y := by
  have hword : multipleWord dir x y = 2#7 ++ BitVec.ofBool x.isSome ++ BitVec.ofBool y.isSome ++ BitVec.ofBool dir ++
      x.elim 0#3 dregCode ++ y.elim 0#3 (fun j => BitVec.ofNat 3 j.val) := by
    cases x <;> cases y <;> rfl
  rw [multipleD_eq_some_iff, multipleP_eq_some_iff, hword, eq_append_iff 13 3, eq_append_iff 10 3, eq_append_iff 9 1,
    eq_append_iff 8 1, eq_append_iff 7 1]
  simp [Machine.extractLsb'_of_extractLsb', extractLsb'_one_eq_ofBool_iff, and_assoc, and_left_comm]

/-- Format ccMV, its registers as the decoder reads them (R131). -/
theorem eq_ccMoveWord_iff {w : Half} {sense : Bool} {dst src : GReg} : w = ccMoveWord sense dst src ↔
    w.extractLsb' 9 7 = 3#7 ∧ w.getLsbD 8 = sense ∧ gregOf (w.getLsbD 7) (w.extractLsb' 3 3) = dst ∧
      gregOf (w.getLsbD 6) (w.extractLsb' 0 3) = src := by
  rw [gregOf_eq_iff, gregOf_eq_iff, ccMoveWord, eq_append_iff 13 3, eq_append_iff 10 3, eq_append_iff 9 1,
    eq_append_iff 8 1, eq_append_iff 7 1]
  simp [Machine.extractLsb'_of_extractLsb', extractLsb'_one_eq_ofBool_iff, and_assoc, and_left_comm]

/-- Format CCflag (R133). -/
theorem eq_compareWord_iff {w : Half} {imm : Bool} {opc : BitVec 3} {ptr : Bool} {y x : BitVec 3} :
    w = compareWord imm opc ptr y x ↔ w.extractLsb' 11 5 = 1#5 ∧ w.getLsbD 10 = imm ∧ w.extractLsb' 7 3 = opc ∧
      w.getLsbD 6 = ptr ∧ w.extractLsb' 3 3 = y ∧ w.extractLsb' 0 3 = x := by
  rw [compareWord, eq_append_iff 13 3, eq_append_iff 10 3, eq_append_iff 9 1, eq_append_iff 6 3, eq_append_iff 5 1]
  simp [Machine.extractLsb'_of_extractLsb', extractLsb'_one_eq_ofBool_iff, and_assoc]

/-- Format BRCC (R124). -/
theorem eq_branchWord_iff {w : Half} {sense bp : Bool} {off : BitVec 10} : w = branchWord sense bp off ↔
    w.extractLsb' 12 4 = 1#4 ∧ w.getLsbD 11 = sense ∧ w.getLsbD 10 = bp ∧ w.extractLsb' 0 10 = off := by
  rw [branchWord, eq_append_iff 6 10, eq_append_iff 5 1, eq_append_iff 4 1]
  simp [Machine.extractLsb'_of_extractLsb', extractLsb'_one_eq_ofBool_iff, and_assoc]

/-- Format REGMV, its registers as the decoder reads them (R130). -/
theorem eq_moveWord_iff {w : Half} {dst src : Reg} :
    w = 0b0011#4 ++ (regCode dst).1 ++ (regCode src).1 ++ (regCode dst).2 ++ (regCode src).2 ↔
      w.extractLsb' 12 4 = 3#4 ∧ regOf (w.extractLsb' 9 3) (w.extractLsb' 3 3) = some dst ∧
        regOf (w.extractLsb' 6 3) (w.extractLsb' 0 3) = some src := by
  rw [regOf_eq_some_iff, regOf_eq_some_iff, eq_append_iff 13 3, eq_append_iff 10 3, eq_append_iff 7 3, eq_append_iff 4 3]
  simp [Machine.extractLsb'_of_extractLsb', and_assoc, and_left_comm]

/-- Format CALLa, its offset as the decoder reads it (R126). -/
theorem eq_callaWords_iff {w0 w1 : Half} {s : Bool} {off : BitVec 24} : [w0, w1] = callaWords s off ↔
    w0.extractLsb' 8 8 = 0b1110001#7 ++ BitVec.ofBool s ∧ off = w0.extractLsb' 0 8 ++ w1 := by
  simp [callaWords, eq_append_iff 8 8, eq_append_iff 8 16, and_assoc, eq_comm]

/-- Format LoopSetup with rop = 1, its operands as the decoder reads them (R127). -/
theorem eq_lsetupWords_iff {w0 w1 : Half} {k : LoopIdx} {soff : BitVec 4} {p : PReg} {eoff : BitVec 10} :
    [w0, w1] = encode (.lsetup k soff p eoff) ↔
      (w0.extractLsb' 8 8 = 0xE0#8 ∧ w0.extractLsb' 5 3 = 5#3 ∧ loopOf (w0.getLsbD 4) = k ∧ w0.extractLsb' 0 4 = soff) ∧
        w1.getLsbD 15 = false ∧ pregOf (w1.extractLsb' 12 3) = p ∧ w1.extractLsb' 10 2 = 0#2 ∧
          w1.extractLsb' 0 10 = eoff := by
  have hsplit : 0b111000001#9 ++ 0b01#2 = 0xE0#8 ++ 5#3 := rfl
  rw [encode, hsplit, List.cons_eq_cons, List.cons_eq_cons, eq_append_iff 12 4, eq_append_iff 11 1, eq_append_iff 8 3,
    eq_append_iff 6 10, eq_append_iff 4 2, eq_append_iff 1 3, pregOf_eq_iff]
  simp [Machine.extractLsb'_of_extractLsb', extractLsb'_one_eq_ofBool_iff, extractLsb'_one_eq_zero_iff, loopOf_eq_iff,
    and_assoc]

/-! ## The map of the 16-bit statements (R140) -/

/-- The row of the map a half-word stands in, with the statement its format gives. -/
inductive Listed16 (w : Half) : Instr → Prop
  | progCtrl {i : Instr} (htop : w.extractLsb' 8 8 = 0#8) (h : decodeProgCtrl w = some i) : Listed16 w i
  | pushPop {i : Instr} (htop : w.extractLsb' 8 8 = 1#8) (h : decodePushPop w = some i) : Listed16 w i
  | multiple {i : Instr} (htop : w.extractLsb' 9 7 = 2#7) (h : decodeMultiple w = some i) : Listed16 w i
  | ccMove (htop : w.extractLsb' 9 7 = 3#7) : Listed16 w (decodeCcMove w)
  | compare {i : Instr} (htop : w.extractLsb' 11 5 = 1#5) (h : decodeCompare w = some i) : Listed16 w i
  | ifCcJump (htop : w.extractLsb' 12 4 = 1#4) (h : w.getLsbD 11 = true) :
      Listed16 w (.ifCcJump (w.getLsbD 10) (w.extractLsb' 0 10))
  | ifNotCcJump (htop : w.extractLsb' 12 4 = 1#4) (h : w.getLsbD 11 = false) :
      Listed16 w (.ifNotCcJump (w.getLsbD 10) (w.extractLsb' 0 10))
  | jumpS (htop : w.extractLsb' 12 4 = 2#4) : Listed16 w (.jumpS (w.extractLsb' 0 12))
  | move {i : Instr} (htop : w.extractLsb' 12 4 = 3#4) (h : decodeMove w = some i) : Listed16 w i

/-- The upper byte of a half-word is its two upper fields of four bits, by which the map is written. -/
theorem upper8_eq_iff {w : Half} {c : BitVec 8} : w.extractLsb' 8 8 = c ↔
    (w.extractLsb' 12 4).toNat = c.toNat / 16 ∧ (w.extractLsb' 8 4).toNat = c.toNat % 16 := by
  simp only [← BitVec.toNat_inj, BitVec.extractLsb'_toNat, Nat.shiftRight_eq_div_pow]
  omega

theorem upper7_eq_iff {w : Half} {c : BitVec 7} : w.extractLsb' 9 7 = c ↔
    (w.extractLsb' 12 4).toNat = c.toNat / 8 ∧ (w.extractLsb' 8 4).toNat / 2 = c.toNat % 8 := by
  simp only [← BitVec.toNat_inj, BitVec.extractLsb'_toNat, Nat.shiftRight_eq_div_pow]
  omega

theorem upper5_eq_iff {w : Half} {c : BitVec 5} : w.extractLsb' 11 5 = c ↔
    (w.extractLsb' 12 4).toNat = c.toNat / 2 ∧ (w.extractLsb' 8 4).toNat / 8 = c.toNat % 2 := by
  simp only [← BitVec.toNat_inj, BitVec.extractLsb'_toNat, Nat.shiftRight_eq_div_pow]
  omega

theorem Listed16.of_decode16 {w : Half} {i : Instr} (h : decode16 w = some i) : Listed16 w i := by
  unfold decode16 at h
  split at h
  next ha hb => exact .progCtrl (upper8_eq_iff.2 ⟨ha, hb⟩) h
  next ha hb => exact .pushPop (upper8_eq_iff.2 ⟨ha, hb⟩) h
  iterate 2 next ha hb => exact .multiple (upper7_eq_iff.2 ⟨ha, by simp [hb]⟩) h
  iterate 2 next ha hb => cases h; exact .ccMove (upper7_eq_iff.2 ⟨ha, by simp [hb]⟩)
  iterate 8 next ha hb => exact .compare (upper5_eq_iff.2 ⟨ha, by simp [hb]⟩) h
  next ha =>
    cases h
    split
    next h => exact .ifCcJump (BitVec.eq_of_toNat_eq ha) h
    next h => exact .ifNotCcJump (BitVec.eq_of_toNat_eq ha) (by simpa using h)
  next ha => cases h; exact .jumpS (BitVec.eq_of_toNat_eq ha)
  next ha => exact .move (BitVec.eq_of_toNat_eq ha) h
  next => cases h

theorem Listed16.decode16_eq {w : Half} {i : Instr} (h : Listed16 w i) : decode16 w = some i := by
  cases h with
  | progCtrl htop h | pushPop htop h =>
    obtain ⟨ha, hb⟩ := upper8_eq_iff.1 htop
    simpa [decode16, ha, hb] using h
  | multiple htop h =>
    obtain ⟨ha, hhalf⟩ : _ ∧ (w.extractLsb' 8 4).toNat / 2 = 2 := upper7_eq_iff.1 htop
    have hb : (w.extractLsb' 8 4).toNat = 4 ∨ (w.extractLsb' 8 4).toNat = 5 := by omega
    rcases hb with hb | hb <;> simpa [decode16, ha, hb] using h
  | ccMove htop =>
    obtain ⟨ha, hhalf⟩ : _ ∧ (w.extractLsb' 8 4).toNat / 2 = 3 := upper7_eq_iff.1 htop
    have hb : (w.extractLsb' 8 4).toNat = 6 ∨ (w.extractLsb' 8 4).toNat = 7 := by omega
    rcases hb with hb | hb <;> simp [decode16, ha, hb]
  | compare htop h =>
    obtain ⟨ha, heighth⟩ : _ ∧ (w.extractLsb' 8 4).toNat / 8 = 1 := upper5_eq_iff.1 htop
    have hlow : 8 ≤ (w.extractLsb' 8 4).toNat := by omega
    have hhigh : (w.extractLsb' 8 4).toNat < 16 := (w.extractLsb' 8 4).isLt
    rw [decode16, ha]
    interval_cases (w.extractLsb' 8 4).toNat <;> exact h
  | ifCcJump htop h | ifNotCcJump htop h => simpa [decode16, htop] using h
  | jumpS htop => simp [decode16, htop]
  | move htop h => simpa [decode16, htop] using h

/-! ## Half-words that decode to a statement encode it -/

/-- A half-word of format PushPopReg decodes to a statement exactly where it encodes it (R128). -/
theorem decodePushPop_eq_some_iff {w : Half} {i : Instr} (htop : w.extractLsb' 8 8 = 1#8) : decodePushPop w = some i ↔
    ∃ dir r, w = pushPopWord dir r ∧ i = if dir then .push r else .pop r := by
  simp only [eq_pushPopWord_iff, htop, decodePushPop]
  cases w.getLsbD 7 <;> cases w.getLsbD 6 <;> simp [eq_comm]

/-- A half-word of format REGMV decodes to a statement exactly where it encodes it (R130). -/
theorem decodeMove_eq_some_iff {w : Half} {i : Instr} (htop : w.extractLsb' 12 4 = 3#4) : decodeMove w = some i ↔
    ∃ dst src, [w] = encode (.regMove dst src) ∧ i = .regMove dst src := by
  simp only [encode, List.singleton_inj, eq_moveWord_iff, htop, decodeMove]
  cases regOf (w.extractLsb' 9 3) (w.extractLsb' 3 3) <;> cases regOf (w.extractLsb' 6 3) (w.extractLsb' 0 3) <;>
    simp [eq_comm]

theorem encode_of_decodeProgCtrl {w : Half} {i : Instr} (htop : w.extractLsb' 8 8 = 0#8) (h : decodeProgCtrl w = some i) :
    [w] = encode i := by
  simp only [decodeProgCtrl] at h
  split at h
  next hfunc =>
    split at h <;> cases h
    all_goals
      next hlow =>
        exact List.singleton_inj.2 (eq_progCtrl_iff.2 ⟨htop, BitVec.eq_of_toNat_eq hfunc, BitVec.eq_of_toNat_eq hlow⟩)
  next hfunc =>
    split at h <;> cases h
    next hlow =>
      exact List.singleton_inj.2 (eq_progCtrl_iff.2 ⟨htop, BitVec.eq_of_toNat_eq hfunc, BitVec.eq_of_toNat_eq hlow⟩)
  iterate 6 next hfunc hbit =>
    cases h
    exact List.singleton_inj.2 (eq_progCtrl_reg_iff.2 ⟨htop, BitVec.eq_of_toNat_eq hfunc, hbit, by simp⟩)
  iterate 2 next hfunc =>
    cases h
    exact List.singleton_inj.2 (eq_progCtrl_iff.2 ⟨htop, BitVec.eq_of_toNat_eq hfunc, rfl⟩)
  next => cases h

theorem encode_of_decodeCompare {w : Half} {i : Instr} (htop : w.extractLsb' 11 5 = 1#5) (h : decodeCompare w = some i) :
    [w] = encode i := by
  simp only [decodeCompare] at h
  split at h <;> cases h
  all_goals
    next hopc hptr himm =>
      exact List.singleton_inj.2
        (eq_compareWord_iff.2 ⟨htop, himm, BitVec.eq_of_toNat_eq hopc, hptr, by simp, by simp⟩)

theorem encode_of_decodePushPop {w : Half} {i : Instr} (htop : w.extractLsb' 8 8 = 1#8) (h : decodePushPop w = some i) :
    [w] = encode i := by
  obtain ⟨dir, r, rfl, rfl⟩ := (decodePushPop_eq_some_iff htop).1 h
  cases dir <;> rfl

theorem encode_of_decodeMultiple {w : Half} {i : Instr} (htop : w.extractLsb' 9 7 = 2#7) (h : decodeMultiple w = some i) :
    [w] = encode i := by
  simp only [decodeMultiple] at h
  split at h
  next =>
    split at h
    next hx hy =>
      cases h
      split
      next hdir => exact List.singleton_inj.2 (eq_multipleWord_iff.2 ⟨htop, hdir, hx, hy⟩)
      next hdir => exact List.singleton_inj.2 (eq_multipleWord_iff.2 ⟨htop, by simpa using hdir, hx, hy⟩)
    next => cases h
  next => cases h

theorem encode_decodeCcMove {w : Half} (htop : w.extractLsb' 9 7 = 3#7) : [w] = encode (decodeCcMove w) := by
  simp only [decodeCcMove]
  split
  next hsense => exact List.singleton_inj.2 (eq_ccMoveWord_iff.2 ⟨htop, hsense, rfl, rfl⟩)
  next hsense => exact List.singleton_inj.2 (eq_ccMoveWord_iff.2 ⟨htop, by simpa using hsense, rfl, rfl⟩)

/-- A half-word that decodes to a 16-bit statement is its encoding (R140). -/
theorem encode_of_decode16 {w : Half} {i : Instr} (h : decode16 w = some i) : [w] = encode i := by
  cases Listed16.of_decode16 h with
  | progCtrl htop h => exact encode_of_decodeProgCtrl htop h
  | pushPop htop h => exact encode_of_decodePushPop htop h
  | multiple htop h => exact encode_of_decodeMultiple htop h
  | ccMove htop => exact encode_decodeCcMove htop
  | compare htop h => exact encode_of_decodeCompare htop h
  | ifCcJump htop hsense | ifNotCcJump htop hsense =>
    exact List.singleton_inj.2 (eq_branchWord_iff.2 ⟨htop, hsense, rfl, rfl⟩)
  | jumpS htop => exact List.singleton_inj.2 ((eq_append_iff 4 12).2 ⟨htop, rfl⟩)
  | move htop h =>
    obtain ⟨dst, src, hw, rfl⟩ := (decodeMove_eq_some_iff htop).1 h
    exact hw

/-- Two half-words that decode to a 32-bit statement are its encoding (R126, R127). -/
theorem encode_of_decode32 {w0 w1 : Half} {i : Instr} (h : decode32 w0 w1 = some i) : [w0, w1] = encode i := by
  simp only [decode32] at h
  split at h
  next htop => cases h; exact eq_callaWords_iff.2 ⟨BitVec.eq_of_toNat_eq htop, rfl⟩
  next htop => cases h; exact eq_callaWords_iff.2 ⟨BitVec.eq_of_toNat_eq htop, rfl⟩
  next htop =>
    split at h
    next hfields =>
      cases h
      simp only [Bool.and_eq_true, decide_eq_true_eq, Bool.not_eq_true'] at hfields
      obtain ⟨⟨hrop, hmid⟩, hbit⟩ := hfields
      exact eq_lsetupWords_iff.2
        ⟨⟨BitVec.eq_of_toNat_eq htop, BitVec.eq_of_toNat_eq hrop, rfl, rfl⟩, hbit, rfl, BitVec.eq_of_toNat_eq hmid, rfl⟩
    next => cases h
  next => cases h

/-! ## Half-words that encode a statement decode to it -/

/-- The encoding of a well-formed 16-bit statement decodes to it (R123 to R133). -/
theorem decode16_of_encode {w : Half} {i : Instr} (hwf : i.wellFormed = true) (hw : [w] = encode i) : decode16 w = some i := by
  apply Listed16.decode16_eq
  cases i with
  | rts | rti | rtx | rtn | rte | idle | raise | excpt =>
    obtain ⟨htop, hfunc, hlow⟩ := eq_progCtrl_iff.1 (List.singleton_inj.1 hw)
    exact .progCtrl htop (by simp only [decodeProgCtrl, hfunc, hlow]; rfl)
  | cli | sti | jumpP | callP | callPcP | jumpPcP =>
    obtain ⟨htop, hfunc, hbit, hreg⟩ := eq_progCtrl_reg_iff.1 (List.singleton_inj.1 hw)
    exact .progCtrl htop (by simp only [decodeProgCtrl, hfunc, hbit, hreg, dregOf_dregCode, pregOf_pregCode]; rfl)
  | ifCcJump =>
    obtain ⟨htop, hsense, rfl, rfl⟩ := eq_branchWord_iff.1 (List.singleton_inj.1 hw)
    exact .ifCcJump htop hsense
  | ifNotCcJump =>
    obtain ⟨htop, hsense, rfl, rfl⟩ := eq_branchWord_iff.1 (List.singleton_inj.1 hw)
    exact .ifNotCcJump htop hsense
  | jumpS =>
    obtain ⟨htop, rfl⟩ := (eq_append_iff 4 12).1 (List.singleton_inj.1 hw)
    exact .jumpS htop
  | jumpL | call | lsetup => cases hw
  | push r | pop r =>
    have hword := List.singleton_inj.1 hw
    obtain ⟨htop, -⟩ := eq_pushPopWord_iff.1 hword
    exact .pushPop htop ((decodePushPop_eq_some_iff htop).2 ⟨_, r, hword, rfl⟩)
  | pushMultiple x y | popMultiple x y =>
    obtain ⟨htop, hdir, hx, hy⟩ := eq_multipleWord_iff.1 (List.singleton_inj.1 hw)
    obtain ⟨hd, -⟩ := multipleD_eq_some_iff.1 hx
    obtain ⟨hp, -⟩ := multipleP_eq_some_iff.1 hy
    have hlist : (w.getLsbD 8 || w.getLsbD 7) = true := by rw [hd, hp]; exact hwf
    refine .multiple htop ?_
    simp only [decodeMultiple, hlist, hdir, hx, hy]
    rfl
  | regMove dst src =>
    obtain ⟨htop, -⟩ := eq_moveWord_iff.1 (List.singleton_inj.1 hw)
    exact .move htop ((decodeMove_eq_some_iff htop).2 ⟨dst, src, hw, rfl⟩)
  | ifCcMove | ifNotCcMove =>
    obtain ⟨htop, hsense, rfl, rfl⟩ := eq_ccMoveWord_iff.1 (List.singleton_inj.1 hw)
    have hmove := Listed16.ccMove htop
    rw [decodeCcMove, hsense] at hmove
    exact hmove
  | ccEqD | ccEqDImm | ccLtD | ccLtDImm | ccLeD | ccLeDImm | ccLtuD | ccLtuDImm | ccLeuD | ccLeuDImm
  | ccEqP | ccEqPImm | ccLtP | ccLtPImm | ccLeP | ccLePImm | ccLtuP | ccLtuPImm | ccLeuP | ccLeuPImm =>
    obtain ⟨htop, himm, hopc, hptr, hy, hx⟩ := eq_compareWord_iff.1 (List.singleton_inj.1 hw)
    exact .compare htop
      (by simp only [decodeCompare, himm, hopc, hptr, hy, hx, dregOf_dregCode, pregOf_pregCode]; rfl)

/-- The encoding of a 32-bit statement decodes to it (R126, R127). -/
theorem decode32_of_encode {w0 w1 : Half} {i : Instr} (hw : [w0, w1] = encode i) : decode32 w0 w1 = some i := by
  cases i with
  | jumpL | call =>
    obtain ⟨htop, rfl⟩ := eq_callaWords_iff.1 hw
    simp [decode32, htop]
  | lsetup =>
    obtain ⟨⟨htop, hrop, rfl, rfl⟩, hbit, rfl, hmid, rfl⟩ := eq_lsetupWords_iff.1 hw
    simp only [decode32, htop, hrop, hbit, hmid]
    rfl
  | _ => cases hw

/-- A statement is one half-word or two (R122). -/
theorem encode_cases (i : Instr) : (∃ w, [w] = encode i) ∨ ∃ w0 w1, [w0, w1] = encode i := by
  cases i with
  | jumpL | call | lsetup => exact .inr ⟨_, _, rfl⟩
  | _ => exact .inl ⟨_, rfl⟩

/-! ## The half-words of a statement -/

/-- The statement that half-words are, all of them. -/
def decodeHalves : List Half → Option Instr
  | [w0] => decode16 w0
  | [w0, w1] => decode32 w0 w1
  | _ => none

theorem encode_of_decodeHalves {ws : List Half} {i : Instr} (h : decodeHalves ws = some i) : ws = encode i := by
  unfold decodeHalves at h
  split at h
  next => exact encode_of_decode16 h
  next => exact encode_of_decode32 h
  next => cases h

theorem decodeHalves_encode {i : Instr} (hwf : i.wellFormed = true) : decodeHalves (encode i) = some i := by
  rcases encode_cases i with ⟨w, hw⟩ | ⟨w0, w1, hw⟩
  · rw [← hw]
    exact decode16_of_encode hwf hw
  · rw [← hw]
    exact decode32_of_encode hw

/-! ## Bytes -/

theorem halfOf_extractLsb' (w : Half) : halfOf (w.extractLsb' 0 8) (w.extractLsb' 8 8) = w :=
  BitVec.extractLsb'_append_extractLsb'

theorem halfBytes_halfOf (b0 b1 : Byte) : halfBytes (halfOf b0 b1) = [b0, b1] := by
  rw [halfBytes, halfOf, BitVec.extractLsb'_append_eq_left, BitVec.extractLsb'_append_eq_right]

/-- A 16-bit statement does not begin like a longer one (R122). -/
theorem isWide_of_decode16 {w : Half} {i : Instr} (h : decode16 w = some i) : isWide w = false := by
  have hfield : (w.extractLsb' 12 4).toNat < 4 := by
    cases Listed16.of_decode16 h with
    | progCtrl htop | pushPop htop => rw [(upper8_eq_iff.1 htop).1]; decide
    | multiple htop | ccMove htop => rw [(upper7_eq_iff.1 htop).1]; decide
    | compare htop => rw [(upper5_eq_iff.1 htop).1]; decide
    | ifCcJump htop | ifNotCcJump htop | jumpS htop | move htop => rw [htop]; decide
  have hbit : w.getLsbD 15 = (w.extractLsb' 12 4).getLsbD 3 := by simp
  have hclear : ∀ c : BitVec 4, c.toNat < 4 → c.getLsbD 3 = false := by decide
  rw [isWide, hbit, hclear _ hfield, Bool.false_and]

/-- A 32-bit statement begins as one, and not like a 64-bit group (R122). -/
theorem isWide_of_decode32 {w0 w1 : Half} {i : Instr} (h : decode32 w0 w1 = some i) :
    isWide w0 = true ∧ isMultiIssue w0 = false := by
  have hfield : 0xE0 ≤ (w0.extractLsb' 8 8).toNat := by
    unfold decode32 at h
    split at h
    iterate 3 next => omega
    next => cases h
  have hset : ∀ c : BitVec 8, 0xE0 ≤ c.toNat → c.getLsbD 7 = true ∧ c.getLsbD 6 = true ∧ c.getLsbD 5 = true := by decide
  obtain ⟨hf, he, hd⟩ : w0.getLsbD 15 = true ∧ w0.getLsbD 14 = true ∧ w0.getLsbD 13 = true := by
    simpa using hset _ hfield
  simp [isMultiIssue, isWide, hf, he, hd]

/-- Half-words that decode to a statement do so as bytes, whatever follows (R122, R142). -/
theorem decode_of_decodeHalves {ws : List Half} {i : Instr} (h : decodeHalves ws = some i) (rest : List Byte) :
    decode (ws.flatMap halfBytes ++ rest) = .ok i := by
  unfold decodeHalves at h
  split at h
  next w =>
    have hnarrow := isWide_of_decode16 h
    simp [decode, halfBytes, halfOf_extractLsb', statementLength, isMultiIssue, hnarrow, h]
  next w0 w1 =>
    obtain ⟨hwide, hsingle⟩ := isWide_of_decode32 h
    simp [decode, halfBytes, halfOf_extractLsb', statementLength, hsingle, hwide, h]
  next => cases h

/-- Four bytes that decode to a statement begin with half-words that do. -/
theorem decodeHalves_of_decode {b0 b1 b2 b3 : Byte} {i : Instr} (h : decode [b0, b1, b2, b3] = .ok i) :
    ∃ ws, decodeHalves ws = some i ∧ ws.flatMap halfBytes <+: [b0, b1, b2, b3] := by
  simp only [decode] at h
  split_ifs at h
  · split at h
    next h32 => cases h; exact ⟨[_, _], h32, by simp [halfBytes_halfOf]⟩
    next => cases h
  · split at h
    next h16 => cases h; exact ⟨[_], h16, by simp [halfBytes_halfOf]⟩
    next => cases h

/-! ## The statements -/

/-- Settles O1: the half-words of the encoding decode to the statement, and so do their bytes. -/
theorem decodeInvertsEncode : Obligations.DecodeInvertsEncode := by
  intro i rest hwf
  exact decode_of_decodeHalves (decodeHalves_encode hwf) rest

/-- Settles O2: the half-words the statement was decoded from are its encoding. -/
theorem encodeInvertsDecode : Obligations.EncodeInvertsDecode := by
  intro b0 b1 b2 b3 i h
  obtain ⟨ws, hws, hbytes⟩ := decodeHalves_of_decode h
  rwa [encode_of_decodeHalves hws] at hbytes

end Sys2Proof

/-! # The forms of the stack statements, moves and LSETUP that the spec refuses -/

namespace Sys2Proof.Machine

/-! ## Refused destinations and pairs -/

/-- A pop into a register not admitted by the form or the platform is refused (40_stack_and_moves.md R163; log 13). -/
theorem exec_pop_of_not_admitted {r : Reg} {s : State} (h : (popAdmitted r && s.admitsWrite r) = false) :
    exec (.pop r) s = .refused .popDestination := by
  show outcome s (runPop r s) = _
  rw [runPop, h]
  rfl

/-- A move of a pair not admitted by the form or the platform is refused (40_stack_and_moves.md R170; log 13). -/
theorem exec_regMove_of_not_admitted {dst src : Reg} {s : State} (h : (moveAdmitted dst src && s.admitsWrite dst) = false) :
    exec (.regMove dst src) s = .refused .moveForm := by
  show outcome s (runMove dst src s) = _
  rw [runMove, h]
  rfl

theorem moveAdmitted_eq_false_iff {dst src : Reg} : moveAdmitted dst src = false ↔
    (isGeneral dst = false ∧ isGeneral src = false) ∨ dst = .seqstat := by
  simp [moveAdmitted, imp_iff_not_or]

/-- A platform whose counterWrite is `refuse` admits every destination but the two cycle counters (log 13). -/
theorem State.admitsWrite_of_refuse {s : State} (h : s.plat.counterWrite = .refuse) (r : Reg) :
    s.admitsWrite r = (decide (r ≠ .cycles) && decide (r ≠ .cycles2)) := by
  simp [State.admitsWrite, h]

theorem State.admitsWrite_of_ne {s : State} {r : Reg} (h : r ≠ .cycles) (h2 : r ≠ .cycles2) : s.admitsWrite r = true := by
  simp [State.admitsWrite, h, h2]

/-! ## The checks of the value written -/

/-- A pop of a register admitted by form, platform and mode, where SP reaches data memory, checks the value for SYSCFG
and then the own loop end before it ends (10_state.md R32; 43_loops.md R262). -/
theorem runPop_eq {r : Reg} {s : State} (hadm : (popAdmitted r && s.admitsWrite r) = true)
    (hreg : ¬ (s.mode = .user ∧ supervisorReg r = true)) (hword : s.holdsWord s.sp) : runPop r s = do
      checkSyscfg r (s.dataWord s.sp.toNat)
      checkLoopWrite r s ((s.setSp (s.sp + 4)).setReg r (s.dataWord s.sp.toNat))
      return finishWrite r s (afterPop r ((s.setSp (s.sp + 4)).setReg r (s.dataWord s.sp.toNat))) := by
  rw [runPop, if_pos hadm, show checkRegister r s = .ok () from if_neg hreg, popWord, memRead_of_holdsWord hword]
  rfl

/-- A move of a pair admitted by form, platform and mode makes the same checks of the value. -/
theorem runMove_eq {dst src : Reg} {s : State} (hadm : (moveAdmitted dst src && s.admitsWrite dst) = true)
    (hdst : ¬ (s.mode = .user ∧ supervisorReg dst = true)) (hsrc : ¬ (s.mode = .user ∧ supervisorReg src = true)) :
    runMove dst src s = do
      checkSyscfg dst (s.reg src)
      checkLoopWrite dst s ((s.afterRead src).setReg dst (s.reg src))
      return finishWrite dst s ((s.afterRead src).setReg dst (s.reg src)) := by
  rw [runMove, if_pos hadm, show checkRegister dst s = .ok () from if_neg hdst,
    show checkRegister src s = .ok () from if_neg hsrc]
  rfl

/-- SYSCFG is refused bit 0 and bit 2 (10_state.md R32; log 18). -/
theorem checkSyscfg_of_mode_bit {v : Word} (h : (v.getLsbD 0 || v.getLsbD 2) = true) :
    checkSyscfg .syscfg v = .error (.refusal .syscfgMode) :=
  if_pos ⟨rfl, h⟩

theorem checkSyscfg_of_ne {r : Reg} (h : r ≠ .syscfg) (v : Word) : checkSyscfg r v = .ok () :=
  if_neg fun hr => h hr.1

/-- The check of R262 refuses a write without a meaning. -/
theorem checkLoopWrite_of_not_meaning {r : Reg} {v : Word} {s u : State} (hl : ∀ k, u.loop k = (s.setReg r v).loop k)
    (h : ¬ s.writeHasMeaning r v) : checkLoopWrite r s u = .error (.refusal .loopEndWrite) :=
  (checkLoopWrite_cases r s u).resolve_left fun hok => h ((checkLoopWrite_ok hl).1 hok)

/-! ## SYSCFG with bit 0 or bit 2 -/

theorem exec_pop_syscfg_refused {s : State} (hword : s.holdsWord s.sp) (hmode : s.mode ≠ .user)
    (hbit : ((s.dataWord s.sp.toNat).getLsbD 0 || (s.dataWord s.sp.toNat).getLsbD 2) = true) :
    exec (.pop .syscfg) s = .refused .syscfgMode := by
  show outcome s (runPop .syscfg s) = _
  rw [runPop_eq (by rw [State.admitsWrite_of_ne (by decide) (by decide)]; rfl) (fun h => hmode h.1) hword,
    checkSyscfg_of_mode_bit hbit]
  rfl

theorem exec_regMove_syscfg_refused {g : GReg} {s : State} (hmode : s.mode ≠ .user)
    (hbit : ((s.reg (.g g)).getLsbD 0 || (s.reg (.g g)).getLsbD 2) = true) :
    exec (.regMove .syscfg (.g g)) s = .refused .syscfgMode := by
  show outcome s (runMove .syscfg (.g g) s) = _
  rw [runMove_eq (by rw [State.admitsWrite_of_ne (by decide) (by decide)]; rfl) (fun h => hmode h.1) (fun h => hmode h.1),
    checkSyscfg_of_mode_bit hbit]
  rfl

/-! ## A loop register at its unit's own active loop end -/

/-- The loop registers are admitted by the form, the platform and every mode. -/
theorem ofLoop_admitted {r : Reg} {k : LoopIdx} (h : ofLoop r k) : popAdmitted r = true ∧
    (∀ g, moveAdmitted r (.g g) = true) ∧ supervisorReg r = false ∧ r ≠ .syscfg ∧ r ≠ .cycles ∧ r ≠ .cycles2 := by
  rcases h with rfl | rfl | rfl <;> simp [popAdmitted, moveAdmitted, isGeneral, supervisorReg]

theorem exec_pop_loop_refused {r : Reg} {k : LoopIdx} {s : State} (hr : ofLoop r k) (hword : s.holdsWord s.sp)
    (h : ¬ s.writeHasMeaning r (s.dataWord s.sp.toNat)) : exec (.pop r) s = .refused .loopEndWrite := by
  obtain ⟨hpop, -, hany, hsyscfg, hcycles, hcycles2⟩ := ofLoop_admitted hr
  show outcome s (runPop r s) = _
  rw [runPop_eq (by rw [hpop, State.admitsWrite_of_ne hcycles hcycles2]; rfl) (by simp [hany]) hword,
    checkSyscfg_of_ne hsyscfg, checkLoopWrite_of_not_meaning (loop_setSp_setReg r _ s) h]
  rfl

theorem exec_regMove_loop_refused {r : Reg} {k : LoopIdx} {g : GReg} {s : State} (hr : ofLoop r k)
    (h : ¬ s.writeHasMeaning r (s.reg (.g g))) : exec (.regMove r (.g g)) s = .refused .loopEndWrite := by
  obtain ⟨-, hmove, hany, hsyscfg, hcycles, hcycles2⟩ := ofLoop_admitted hr
  show outcome s (runMove r (.g g) s) = _
  rw [runMove_eq (by rw [hmove, State.admitsWrite_of_ne hcycles hcycles2]; rfl) (by simp [hany]) (by simp [supervisorReg]),
    checkSyscfg_of_ne hsyscfg, checkLoopWrite_of_not_meaning (loop_afterRead_setReg r (.g g) _ s) h]
  rfl

/-! ## LSETUP -/

/-- Degenerate offsets are refused (43_loops.md R266). -/
theorem exec_lsetup_of_degenerate {k : LoopIdx} {soff : BitVec 4} {p : PReg} {eoff : BitVec 10} (s : State)
    (h : 2 * soff.toNat < 4 ∨ eoff.toNat < soff.toNat) : exec (.lsetup k soff p eoff) s = .refused .lsetupOffsets := by
  have hoff : lsetupAdmitted soff eoff = false := by
    simp only [lsetupAdmitted, Bool.and_eq_false_iff, decide_eq_false_iff_not]
    omega
  show execLsetup k soff p eoff s = _
  rw [execLsetup, hoff]
  rfl

/-- At the active end of the unit it loads, before or after the load, LSETUP is refused where the platform says so (43_loops.md
R262). -/
theorem exec_lsetup_at_loop_end {k : LoopIdx} {soff : BitVec 4} {p : PReg} {eoff : BitVec 10} {s : State}
    (hplat : s.plat.loopEndWrite = .refuse) (hsoff : 2 ≤ soff.toNat) (heoff : soff.toNat ≤ eoff.toNat)
    (hpc : s.pc = (s.loop k).lb) (hlc : (s.loop k).lc ≠ 0 ∨ s.preg p ≠ 0) :
    exec (.lsetup k soff p eoff) s = .refused .loopEndWrite := by
  have hoff : lsetupAdmitted soff eoff = true := by simp [lsetupAdmitted, hsoff, heoff]
  have hrefused : loopWriteRefused k s (loopSetup k soff p eoff s) = true := by
    simpa [loopWriteRefused, loopClash, loopSetup, hplat, ← hpc] using hlc
  show execLsetup k soff p eoff s = _
  rw [execLsetup, hoff, hrefused]
  rfl

/-! ## The statement -/

/-- Settles O55: each form fails the check that names it, and no check before. -/
theorem formsTheSpecRefuses : Obligations.FormsTheSpecRefuses := by
  intro s
  refine ⟨?popForm, ?moveForm, rfl, rfl, fun _ _ _ _ h => exec_lsetup_of_degenerate s h,
    fun _ hmode hbit => exec_regMove_syscfg_refused hmode hbit,
    fun hword hmode hbit => exec_pop_syscfg_refused hword hmode hbit, ?counters, ?loopEnd⟩
  case popForm =>
    rintro r (rfl | rfl) <;> exact exec_pop_of_not_admitted rfl
  case moveForm =>
    intro dst src h
    exact exec_regMove_of_not_admitted (by rw [moveAdmitted_eq_false_iff.2 h, Bool.false_and])
  case counters =>
    intro hplat r hr
    have hwrite : s.admitsWrite r = false := by
      rw [State.admitsWrite_of_refuse hplat]
      rcases hr with rfl | rfl <;> rfl
    exact ⟨exec_pop_of_not_admitted (by rw [hwrite, Bool.and_false]),
      fun src => exec_regMove_of_not_admitted (by rw [hwrite, Bool.and_false])⟩
  case loopEnd =>
    intro hplat r k hr
    have hmeaning {v : Word} (h : ¬ s.freeOfLoopEnd r v) : ¬ s.writeHasMeaning r v := fun hw => h (hw hplat)
    exact ⟨fun _ h => exec_regMove_loop_refused hr (hmeaning h),
      fun hword h => exec_pop_loop_refused hr hword (hmeaning h),
      fun _ _ _ hsoff heoff hpc hlc => exec_lsetup_at_loop_end hplat hsoff heoff hpc hlc⟩

end Sys2Proof.Machine

/-! # The words of the spec's examples -/

namespace Sys2Proof

/-- Bytes that are the encoding of a well-formed statement decode to it (30_encoding.md R122 to R133). -/
theorem decode_of_encodeBytes {bs : List Byte} {i : Instr} (hwf : i.wellFormed = true) (hbytes : encodeBytes i = bs) :
    decode bs = .ok i := by
  rw [← hbytes, ← List.append_nil (encodeBytes i)]
  exact decodeInvertsEncode i [] hwf

/-- Settles O3: the bytes are the encodings of the statements, which the decoder inverts. -/
theorem exampleWords : Obligations.ExampleWords :=
  ⟨decode_of_encodeBytes rfl rfl, decode_of_encodeBytes rfl rfl, decode_of_encodeBytes rfl rfl,
    decode_of_encodeBytes rfl rfl, decode_of_encodeBytes rfl rfl, decode_of_encodeBytes rfl rfl⟩

end Sys2Proof

/-! # Pushes, pops and moves that complete (40_stack_and_moves.md) -/

namespace Sys2Proof.Machine

/-! ## What `sameCore` determines -/

theorem sameCore_refl (s : State) : sameCore s s := by
  simp [sameCore, keepsGeneral, keepsReturns, keepsEvents, keepsWorld]

theorem sameCore_mode {u t : State} (h : sameCore u t) : t.mode = u.mode := by
  obtain ⟨-, -, -, -, -, ⟨-, -, hipend, -, -⟩, -⟩ := h
  exact State.mode_congr hipend

/-- The general registers are among what `sameCore` keeps. -/
theorem sameCore_greg {u t : State} (h : sameCore u t) (q : GReg) : t.greg q = u.greg q := by
  have hmode := sameCore_mode h
  obtain ⟨⟨hd, hp, hssp, husp, hfp⟩, -⟩ := h
  exact State.greg_congr hd hp (State.sp_congr hmode hssp husp) hfp q

theorem sameCore_sp {u t : State} (h : sameCore u t) : t.sp = u.sp :=
  sameCore_greg h (.p .sp)

/-- Going on to the next address is outside `sameCore`. -/
theorem sameCore_advance (len : Word) (u : State) : sameCore u (advance len u) :=
  (sameButFlow_advance len u).1

/-- A store to data memory is outside `sameCore`. -/
theorem sameCore_setDataWord (u : State) (a : Nat) (v : Word) : sameCore u (u.setDataWord a v) := by
  simp [sameCore, keepsGeneral, keepsReturns, keepsEvents, keepsWorld]

/-- The end of an instruction that wrote a register is outside `sameCore`. -/
theorem sameCore_finishWrite (r : Reg) (s u : State) : sameCore u (finishWrite r s u) := by
  simp [sameCore, keepsGeneral, keepsReturns, keepsEvents, keepsWorld]

/-! ## Data memory after updates of other fields -/

theorem advance_dataByte (len : Word) (s : State) (a : Nat) : (advance len s).dataByte a = s.dataByte a :=
  State.dataByte_congr (advance_mem ..) (advance_memEpoch ..) a

theorem advance_dataWord (len : Word) (s : State) (a : Nat) : (advance len s).dataWord a = s.dataWord a :=
  State.dataWord_congr (advance_mem ..) (advance_memEpoch ..) a

theorem State.setIpend_dataByte (s : State) (v : BitVec 16) (a : Nat) : (s.setIpend v).dataByte a = s.dataByte a := rfl

theorem State.setIpend_dataWord (s : State) (v : BitVec 16) (a : Nat) : (s.setIpend v).dataWord a = s.dataWord a := rfl

theorem State.setSp_dataByte (s : State) (v : Word) (a : Nat) : (s.setSp v).dataByte a = s.dataByte a :=
  State.dataByte_congr (State.setSp_mem ..) (State.setSp_memEpoch ..) a

theorem State.setSp_dataWord (s : State) (v : Word) (a : Nat) : (s.setSp v).dataWord a = s.dataWord a :=
  State.dataWord_congr (State.setSp_mem ..) (State.setSp_memEpoch ..) a

/-! ## One push -/

/-- Which addresses hold a word of data memory depends on the platform alone (20_memory.md R81). -/
theorem State.holdsWord_congr {s t : State} {a : Word} (hplat : t.plat = s.plat) : t.holdsWord a ↔ s.holdsWord a := by
  simp only [State.holdsWord, State.isRam, State.isProgram, hplat]

/-- The state a push step onto data memory leaves (40_stack_and_moves.md R160). -/
def State.pushed (s : State) (v : Word) : State :=
  (s.setDataWord (s.sp - 4).toNat v).setSp (s.sp - 4)

/-- The push step where the word below SP is data memory. -/
theorem pushWord_of_holdsWord {s : State} (h : s.holdsWord (s.sp - 4)) (v : Word) : pushWord v s = .ok (s.pushed v) := by
  rw [pushWord, memWrite_of_holdsWord h]
  rfl

theorem State.pushed_dataWord (s : State) (v : Word) : (s.pushed v).dataWord (s.sp - 4).toNat = v :=
  (State.setSp_dataWord ..).trans (s.setDataWord_dataWord _ v)

theorem State.pushed_dataByte {s : State} {b : Nat} (v : Word) (h : ¬ ((s.sp - 4).toNat ≤ b ∧ b < (s.sp - 4).toNat + 4)) :
    (s.pushed v).dataByte b = s.dataByte b :=
  (State.setSp_dataByte ..).trans (s.setDataWord_outside _ v h)

/-- A push step writes SP and memory alone. -/
theorem sameCore_pushed (s : State) (v : Word) : sameCore (s.setSp (s.sp - 4)) (s.pushed v) :=
  sameCore_setSp (sameCore_setDataWord ..) rfl _

/-- A push of a register the mode may name, where the word below SP is data memory. -/
theorem exec_push_of_holdsWord {r : Reg} {s : State} (hr : ¬ (s.mode = .user ∧ supervisorReg r = true))
    (hword : s.holdsWord (s.sp - 4)) :
    exec (.push r) s = .next (advance 2 (afterPush r ((afterPushRead r s).pushed (pushValue r s)))) := by
  obtain ⟨-, -, -, hplat, -⟩ := afterPushRead_keeps r s
  have hread : (afterPushRead r s).holdsWord ((afterPushRead r s).sp - 4) := by
    rwa [afterPushRead_sp, State.holdsWord_congr hplat]
  show outcome s (runPush r s) = _
  rw [runPush, show checkRegister r s = .ok () from if_neg hr, pushWord_of_holdsWord hread]
  rfl

/-- A push that completes keeps everything but SP, memory, the counter it read, IPEND[4] for RETI, pc and the loop units
(40_stack_and_moves.md R160, R161, R162). -/
theorem sameCore_push (r : Reg) (s : State) (v : Word) :
    sameCore ((s.setSp (s.sp - 4)).setIpend (if r = .reti then s.ipend &&& 0xFFEF#16 else s.ipend))
      (advance 2 (afterPush r ((afterPushRead r s).pushed v))) := by
  obtain ⟨hmode, -, -, -, -, -, hcore, -⟩ := afterPushRead_keeps r s
  have hpushed : sameCore (s.setSp (s.sp - 4)) ((afterPushRead r s).pushed v) := by
    refine sameCore_trans (sameCore_setSp hcore hmode _) ?_
    rw [← afterPushRead_sp r s]
    exact sameCore_pushed _ v
  have hipend : ((afterPushRead r s).pushed v).ipend = s.ipend := by
    obtain ⟨-, -, -, -, -, ⟨-, -, hipend, -, -⟩, -⟩ := hpushed
    rw [hipend, State.setSp_ipend]
  rw [afterPush_setIpend, hipend]
  exact sameCore_trans (sameCore_setIpend hpushed _) (sameCore_advance ..)

/-- Settles O47: the push is a push step from the state that counts the read, followed by the effect on IPEND and the next
address. -/
theorem pushCompletes : Obligations.PushCompletes := by
  intro r s hr hword
  obtain ⟨-, -, -, -, hmem, hepoch, -, hcycles, hcycles2, hpc, hloop0, hloop1⟩ := afterPushRead_keeps r s
  have hsp := afterPushRead_sp r s
  have hcore := sameCore_push r s (pushValue r s)
  refine ⟨_, exec_push_of_holdsWord hr hword, by simp [State.pushed, hsp], ?_⟩
  rw [afterPush_setIpend] at hcore ⊢
  refine ⟨fun hne => ?word, fun b hb => ?frame, hcore, ?cycles, ?cycles2, ?next⟩
  case word =>
    rw [advance_dataWord, State.setIpend_dataWord, ← hsp, State.pushed_dataWord]
    exact if_neg hne
  case frame =>
    rw [← hsp] at hb
    rw [advance_dataByte, State.setIpend_dataByte, State.pushed_dataByte _ hb]
    exact State.dataByte_congr hmem hepoch b
  case cycles => simpa [State.pushed] using hcycles
  case cycles2 => simpa [State.pushed] using hcycles2
  case next =>
    exact goesOn_advance 2 _ s (by simp [State.pushed, hpc]) (by simp [State.pushed, hloop0]) (by simp [State.pushed, hloop1])

/-! ## One pop and the move -/

/-- The pop step where the word at SP is data memory (40_stack_and_moves.md R163). -/
theorem popWord_of_holdsWord {s : State} (h : s.holdsWord s.sp) :
    popWord s = .ok (s.dataWord s.sp.toNat, s.setSp (s.sp + 4)) := by
  rw [popWord, memRead_of_holdsWord h]
  rfl

/-- SYSCFG may be given a value whose bits 0 and 2 are clear (10_state.md R32). -/
theorem checkSyscfg_of_mode_bits_clear {r : Reg} {v : Word} (h : r = .syscfg → v.getLsbD 0 = false ∧ v.getLsbD 2 = false) :
    checkSyscfg r v = .ok () := by
  refine if_neg ?_
  rintro ⟨hr, hbit⟩
  obtain ⟨h0, h2⟩ := h hr
  rw [h0, h2] at hbit
  cases hbit

/-- The side effect of a pop is a write of IPEND (40_stack_and_moves.md R164). -/
theorem afterPop_setIpend (r : Reg) (s : State) :
    afterPop r s = s.setIpend (if r = .reti then s.ipend ||| 0x0010#16 else s.ipend) := by
  unfold afterPop
  split <;> rfl

/-- The state of a pop that has written SP, its register and IPEND, and has not yet gone on (40_stack_and_moves.md R163, R164). -/
def State.popped (s : State) (r : Reg) (v : Word) : State :=
  afterPop r ((s.setSp (s.sp + 4)).setReg r v)

theorem State.popped_eq (s : State) (r : Reg) (v : Word) : s.popped r v =
    ((s.setSp (s.sp + 4)).setReg r v).setIpend (if r = .reti then s.ipend ||| 0x0010#16 else s.ipend) := by
  rw [State.popped, afterPop_setIpend, State.setReg_ipend, State.setSp_ipend]

theorem State.popped_loop (s : State) (r : Reg) (v : Word) (k : LoopIdx) : (s.popped r v).loop k = (s.setReg r v).loop k := by
  rw [State.popped_eq, ← loop_setSp_setReg]
  cases k <;> rfl

theorem State.popped_pc (s : State) (r : Reg) (v : Word) : (s.popped r v).pc = s.pc := by
  simp [State.popped_eq]

/-- The effect on IPEND leaves the register popped. -/
theorem State.popped_reg (s : State) (r : Reg) (v : Word) :
    (s.popped r v).reg r = ((s.setSp (s.sp + 4)).setReg r v).reg r := by
  unfold State.popped afterPop
  split
  next h => subst h; rfl
  next => rfl

/-- A write of a register that is not SP leaves SP. -/
theorem State.setReg_sp {s : State} {r : Reg} (v : Word) (hr : r ≠ .g (.p .sp)) (husp : ¬ (s.mode = .user ∧ r = .usp)) :
    (s.setReg r v).sp = s.sp := by
  refine State.setReg_reg_of_ne (q := .g (.p .sp)) v hr.symm ?_
  rintro ⟨hmode, ⟨h, -⟩ | ⟨-, h⟩⟩
  · cases h
  · exact husp ⟨hmode, h⟩

/-- The pop of a register that is not SP leaves SP above the word. -/
theorem State.popped_sp {s : State} {r : Reg} (v : Word) (hr : r ≠ .g (.p .sp)) (husp : ¬ (s.mode = .user ∧ r = .usp)) :
    (s.popped r v).sp = s.sp + 4 := by
  have hipend : (s.popped r v).sp = ((s.setSp (s.sp + 4)).setReg r v).sp :=
    State.sp_congr (afterPop_mode ..) (by rw [State.popped_eq]; rfl) (by rw [State.popped_eq]; rfl)
  rw [hipend, State.setReg_sp v hr (by rwa [State.setSp_mode]), State.setSp_sp]

theorem State.setReg_cycles_of_ne {r : Reg} (h : r ≠ .cycles) (s : State) (v : Word) : (s.setReg r v).cycles = s.cycles := by
  cases r with
  | cycles => exact absurd rfl h
  | _ => simp [State.setReg]

theorem State.setReg_cycles2_of_ne {r : Reg} (h : r ≠ .cycles2) (s : State) (v : Word) :
    (s.setReg r v).cycles2 = s.cycles2 := by
  cases r with
  | cycles2 => exact absurd rfl h
  | _ => simp [State.setReg]

theorem State.afterRead_cycles_of_ne {r : Reg} (h : r ≠ .cycles) (s : State) : (s.afterRead r).cycles = s.cycles := by
  cases r with
  | cycles => exact absurd rfl h
  | _ => rfl

theorem State.afterRead_cycles2_of_ne {r : Reg} (h : r ≠ .cycles2) (s : State) : (s.afterRead r).cycles2 = s.cycles2 := by
  cases r with
  | cycles2 => exact absurd rfl h
  | _ => rfl

/-- `sameCore` under a write of a register of the R or the P file. -/
theorem sameCore_setGreg {s u : State} (h : sameCore s u) (r : GReg) (v : Word) : sameCore (s.setGreg r v) (u.setGreg r v) := by
  have hmode := sameCore_mode h
  obtain ⟨⟨hd, hp, hssp, husp, hfp⟩, hreturns, hseqstat, hsyscfg, hastat, hevents, hworld⟩ := h
  rcases r with i | n | _ | _
  · exact ⟨⟨by simp [State.setGreg, hd], hp, hssp, husp, hfp⟩, hreturns, hseqstat, hsyscfg, hastat, hevents, hworld⟩
  · exact ⟨⟨hd, by simp [State.setGreg, State.setPreg, hp], hssp, husp, hfp⟩, hreturns, hseqstat, hsyscfg, hastat, hevents,
      hworld⟩
  · exact sameCore_setSp ⟨⟨hd, hp, hssp, husp, hfp⟩, hreturns, hseqstat, hsyscfg, hastat, hevents, hworld⟩ hmode v
  · exact ⟨⟨hd, hp, hssp, husp, rfl⟩, hreturns, hseqstat, hsyscfg, hastat, hevents, hworld⟩

/-- `sameCore` under a write of a register. -/
theorem sameCore_setReg {s u : State} (h : sameCore s u) (r : Reg) (v : Word) : sameCore (s.setReg r v) (u.setReg r v) := by
  cases r with
  | g q => exact sameCore_setGreg h q v
  | lc k | lt k | lb k => cases k <;> exact h
  | seqstat | cycles | cycles2 => exact h
  | _ =>
    obtain ⟨hgeneral, hreturns, hseqstat, hsyscfg, hastat, hevents, hworld⟩ := h
    simp_all [sameCore, keepsGeneral, keepsReturns, keepsEvents, keepsWorld, State.setReg]

/-- Reading a register keeps everything but the counter that was read (10_state.md R34). -/
theorem sameCore_afterRead (s : State) (r : Reg) : sameCore s (s.afterRead r) := by
  simp [sameCore, keepsGeneral, keepsReturns, keepsEvents, keepsWorld]

/-- The end of an instruction that wrote a register leaves the register as written, LC at its own active loop end excepted
(43_loops.md R262; log 17). -/
theorem finishWrite_reg {r : Reg} {v : Word} {s u : State} (hpc : u.pc = s.pc)
    (hloop : ∀ k, u.loop k = (s.setReg r v).loop k) (hend : s.freeOfLoopEnd r v ∨ ∀ k, r ≠ .lc k) (hcycles : r ≠ .cycles)
    (hcycles2 : r ≠ .cycles2) : (finishWrite r s u).reg r = u.reg r := by
  obtain ⟨hnext, honce, hopen⟩ := goesOnAfterWrite_finishWrite r v s u hpc hloop
  cases r with
  | lc k =>
    have hfree : s.freeOfLoopEnd (.lc k) v := hend.resolve_right fun h => h k rfl
    suffices h : (finishWrite (.lc k) s u).loop k = u.loop k from congrArg LoopUnit.lc h
    cases hseen : s.plat.loopWriteSeen with
    | fromNext =>
      obtain ⟨-, hunits⟩ := hnext hfree hseen
      exact (hunits k).1 (.inl rfl)
    | atOnce =>
      have hinert : u.pc ≠ (u.loop k).lb ∨ (u.loop k).lc = 0 := by
        rw [hpc, hloop]
        simpa [State.setReg] using (hfree k (.inl rfl)).imp_right fun h => h.2 rfl
      obtain ⟨-, h0, h1⟩ := honce hfree hseen
      rw [← advance_inert 2 k u hinert]
      cases k
      · exact h0
      · exact h1
  | lt k =>
    obtain ⟨_, -, hlt, -⟩ := hopen k (.inr (.inl rfl))
    exact hlt
  | lb k =>
    obtain ⟨_, -, -, hlb, -⟩ := hopen k (.inr (.inr rfl))
    exact hlb
  | g q => exact sameCore_greg (sameCore_finishWrite _ s u) q
  | cycles | cycles2 => contradiction
  | _ => simp [State.reg]

/-- The same end goes on as the statements of the pop and the move say, from the state with the one write (43_loops.md R256,
R262). -/
theorem goesOnAfterWrite_setReg {r : Reg} {v : Word} {s u : State} (hpc : u.pc = s.pc)
    (hloop : ∀ k, u.loop k = (s.setReg r v).loop k) : goesOnAfterWrite r v s (s.setReg r v) (finishWrite r s u) :=
  goesOnAfterWrite_congr (goesOnAfterWrite_finishWrite r v s u hpc hloop) (by rw [hpc, State.setReg_pc]) (hloop .l0) (hloop .l1)

theorem finishWrite_dataByte (r : Reg) (s u : State) (a : Nat) : (finishWrite r s u).dataByte a = u.dataByte a :=
  State.dataByte_congr (finishWrite_mem ..) (finishWrite_memEpoch ..) a

/-- Settles O49: the pop passes its checks, and is the writes of SP, the register and IPEND and the end of an instruction that
wrote the register. -/
theorem popCompletes : Obligations.PopCompletes := by
  intro r s hpop hwrite hr hword hmeaning hsyscfg
  have hrun := runPop_run hpop hwrite hr (popWord_of_holdsWord hword) (checkSyscfg_of_mode_bits_clear hsyscfg) hmeaning
  generalize s.dataWord s.sp.toNat = v at *
  have hpc := s.popped_pc r v
  have hloop := s.popped_loop r v
  have hcore := sameCore_finishWrite r s (s.popped r v)
  have hnotsp : r ≠ .g (.p .sp) := by rintro rfl; cases hpop
  have hnotseqstat : r ≠ .seqstat := by rintro rfl; cases hpop
  refine ⟨finishWrite r s (s.popped r v), congrArg (outcome s) hrun, ?sp, fun hend hcycles hcycles2 => ?reg, fun a => ?memory,
    ?core, fun hcycles => ?cycles, fun hcycles2 => ?cycles2, goesOnAfterWrite_setReg hpc hloop⟩
  case sp =>
    have husp : ¬ (s.mode = .user ∧ r = .usp) := by
      rintro ⟨hmode, rfl⟩
      exact hr ⟨hmode, rfl⟩
    rw [sameCore_sp hcore, State.popped_sp v hnotsp husp]
  case reg =>
    rw [finishWrite_reg hpc hloop hend hcycles hcycles2, State.popped_reg,
      State.setReg_reg_same _ v hnotseqstat hcycles hcycles2]
  case memory =>
    rw [finishWrite_dataByte, State.popped_eq]
    exact State.dataByte_congr (by simp) (by simp) a
  case core => rwa [← State.popped_eq]
  case cycles => simp [State.popped_eq, State.setReg_cycles_of_ne hcycles]
  case cycles2 => simp [State.popped_eq, State.setReg_cycles2_of_ne hcycles2]

/-- Settles O50: the move passes its checks, and is the read of the source, the write of the destination and the end of an
instruction that wrote it. -/
theorem moveCompletes : Obligations.MoveCompletes := by
  intro dst src s hadm hwrite hmeaning hr hsyscfg
  have hrun := runMove_run hadm hwrite hr (checkSyscfg_of_mode_bits_clear hsyscfg) hmeaning
  generalize s.reg src = v at *
  have hloop := loop_afterRead_setReg dst src v s
  have hpc : ((s.afterRead src).setReg dst v).pc = s.pc := by simp
  have hnotseqstat : dst ≠ .seqstat := by
    rintro rfl
    simp [moveAdmitted] at hadm
  refine ⟨_, congrArg (outcome s) hrun, fun hend hcycles hcycles2 => ?reg, ?core, ?ipend, fun a => ?memory,
    fun hsrc hdst => ?cycles, fun hsrc hdst => ?cycles2, goesOnAfterWrite_setReg hpc hloop⟩
  case reg =>
    rw [finishWrite_reg hpc hloop hend hcycles hcycles2, State.setReg_reg_same _ v hnotseqstat hcycles hcycles2]
  case core => exact sameCore_trans (sameCore_setReg (sameCore_afterRead s src) dst v) (sameCore_finishWrite ..)
  case ipend => simp
  case memory =>
    rw [finishWrite_dataByte]
    exact State.dataByte_congr (by simp) (by simp) a
  case cycles => rw [finishWrite_cycles, State.setReg_cycles_of_ne hdst, State.afterRead_cycles_of_ne hsrc]
  case cycles2 => rw [finishWrite_cycles2, State.setReg_cycles2_of_ne hdst, State.afterRead_cycles2_of_ne hsrc]

end Sys2Proof.Machine

/-! # Multiple pushes and pops that complete (40_stack_and_moves.md R166, R167) -/

namespace Sys2Proof.Machine

/-! ## The words of the stack -/

/-- The word that the push step `i` of a multiple push stores where SP is `a` before it. -/
def wordBelow (a : Word) (i : Nat) : Word :=
  a - BitVec.ofNat 32 (4 * (i + 1))

/-- The word that the pop step `i` of a multiple pop loads where SP is `a` before it. -/
def wordAbove (a : Word) (i : Nat) : Word :=
  a + BitVec.ofNat 32 (4 * i)

theorem wordBelow_zero (a : Word) : wordBelow a 0 = a - 4 := rfl

theorem wordBelow_succ (a : Word) (i : Nat) : wordBelow a (i + 1) = wordBelow (a - 4) i := by
  unfold wordBelow
  bv_omega

theorem wordAbove_zero (a : Word) : wordAbove a 0 = a := BitVec.add_zero a

theorem wordAbove_succ (a : Word) (i : Nat) : wordAbove a (i + 1) = wordAbove (a + 4) i := by
  unfold wordAbove
  bv_omega

/-- From where `n` pushes leave SP, the pops take the words of the pushes in reverse. -/
theorem wordAbove_sub {n i : Nat} (a : Word) (h : i < n) :
    wordAbove (a - BitVec.ofNat 32 (4 * n)) i = wordBelow a (n - 1 - i) := by
  unfold wordBelow wordAbove
  bv_omega

theorem aligned_iff {a : Word} : a.extractLsb' 0 2 = 0#2 ↔ a.toNat % 4 = 0 := by
  rw [← BitVec.toNat_inj, BitVec.extractLsb'_toNat]
  simp

/-- The words below an aligned SP are aligned (20_memory.md R86). -/
theorem wordBelow_aligned {a : Word} (ha : a.extractLsb' 0 2 = 0#2) (i : Nat) : (wordBelow a i).extractLsb' 0 2 = 0#2 := by
  rw [aligned_iff] at ha ⊢
  unfold wordBelow
  bv_omega

/-- The words below SP are other words than the one at SP, as long as they do not run around the address space. -/
theorem wordBelow_ne {i : Nat} (a : Word) (h : i + 1 < 0x40000000) : wordBelow a i ≠ a := by
  unfold wordBelow
  bv_omega

/-- No byte of one aligned word is a byte of another. -/
theorem not_in_other_word {a b : Word} {i : Nat} (ha : a.extractLsb' 0 2 = 0#2) (hb : b.extractLsb' 0 2 = 0#2) (hne : b ≠ a)
    (hi : i < 4) : ¬ (b.toNat ≤ a.toNat + i ∧ a.toNat + i < b.toNat + 4) := by
  rw [aligned_iff] at ha hb
  have hval : b.toNat ≠ a.toNat := fun h => hne (BitVec.eq_of_toNat_eq h)
  omega

/-! ## Writes of SP among other writes -/

theorem State.setSp_self (s : State) : s.setSp s.sp = s := by
  unfold State.setSp State.sp
  split <;> rfl

theorem State.setSp_setSp (s : State) (a b : Word) : (s.setSp a).setSp b = s.setSp b := by
  by_cases h : s.mode = .user <;> simp [State.setSp, h] <;> rfl

theorem State.setSp_setDataWord (s : State) (a v : Word) (b : Nat) :
    (s.setSp a).setDataWord b v = (s.setDataWord b v).setSp a := by
  by_cases h : s.mode = .user <;> simp [State.setSp, h] <;> rfl

theorem State.setSp_setGreg {r : GReg} (h : r ≠ .p .sp) (s : State) (a v : Word) :
    (s.setSp a).setGreg r v = (s.setGreg r v).setSp a := by
  unfold State.setSp
  rw [State.setGreg_mode]
  rcases r with i | n | _ | _
  case p.sp => contradiction
  all_goals split <;> rfl

/-! ## The registers of a multiple push or pop -/

/-- Its registers are among R0..R7, P0..P5, each once, in this order (40_stack_and_moves.md R166). -/
theorem multipleRegs_sublist (x : Option DReg) (y : Option (Fin 6)) :
    (multipleRegs x y).Sublist (multipleRegs (some 0) (some 0)) := by
  refine List.Sublist.append ?_ ?_
  · cases x with
    | none => exact List.nil_sublist _
    | some i => exact List.filter_sublist.map _
  · cases y with
    | none => exact List.nil_sublist _
    | some j => exact List.filter_sublist.map _

theorem multipleRegs_length_le (x : Option DReg) (y : Option (Fin 6)) : (multipleRegs x y).length ≤ 14 :=
  (multipleRegs_sublist x y).length_le

theorem multipleRegs_nodup (x : Option DReg) (y : Option (Fin 6)) : (multipleRegs x y).Nodup :=
  (multipleRegs_sublist x y).nodup (by decide)

theorem sp_notMem_multipleRegs (x : Option DReg) (y : Option (Fin 6)) : .p .sp ∉ multipleRegs x y :=
  fun h => absurd ((multipleRegs_sublist x y).mem h) (by decide)

/-! ## The multiple push -/

/-- The state with words stored one below the other, the first below the address `a` (40_stack_and_moves.md R166). -/
def State.storeBelow : State → Word → List Word → State
  | s, _, [] => s
  | s, a, v :: vs => (s.setDataWord (a - 4).toNat v).storeBelow (a - 4) vs

/-- Only memory is written. -/
theorem State.storeBelow_eq_setMem (s : State) (a : Word) (vs : List Word) : ∃ m, s.storeBelow a vs = s.setMem m := by
  induction vs generalizing s a with
  | nil => exact ⟨s.mem, rfl⟩
  | cons v vs ih =>
    obtain ⟨m, hm⟩ := ih (s.setDataWord (a - 4).toNat v) (a - 4)
    exact ⟨m, hm⟩

theorem State.setSp_storeBelow (s : State) (b a : Word) (vs : List Word) :
    (s.setSp b).storeBelow a vs = (s.storeBelow a vs).setSp b := by
  induction vs generalizing s a with
  | nil => rfl
  | cons v vs ih => rw [State.storeBelow, State.setSp_setDataWord, ih, State.storeBelow]

/-- Every byte outside the words stored is kept. -/
theorem State.storeBelow_dataByte {s : State} {a : Word} {vs : List Word} {b : Nat}
    (h : ∀ i < vs.length, ¬ ((wordBelow a i).toNat ≤ b ∧ b < (wordBelow a i).toNat + 4)) :
    (s.storeBelow a vs).dataByte b = s.dataByte b := by
  induction vs generalizing s a with
  | nil => rfl
  | cons v vs ih =>
    have hfirst := h 0 (by simp)
    have hrest : ∀ i < vs.length, ¬ ((wordBelow (a - 4) i).toNat ≤ b ∧ b < (wordBelow (a - 4) i).toNat + 4) := by
      intro i hi
      rw [← wordBelow_succ]
      exact h (i + 1) (by simpa using hi)
    rw [State.storeBelow, ih hrest]
    exact s.setDataWord_outside _ v hfirst

/-- A word is kept whose bytes are. -/
theorem State.dataWord_congr_bytes {s t : State} {a : Nat} (h : ∀ i < 4, t.dataByte (a + i) = s.dataByte (a + i)) :
    t.dataWord a = s.dataWord a := by
  have h0 := h 0 (by omega)
  rw [Nat.add_zero] at h0
  rw [State.dataWord, State.dataWord, h0, h 1 (by omega), h 2 (by omega), h 3 (by omega)]

/-- Each word stored is read back: the later ones lie at other words. -/
theorem State.storeBelow_dataWord {s : State} {a : Word} {vs : List Word} (ha : a.extractLsb' 0 2 = 0#2)
    (hlen : vs.length < 0x40000000) (i : Nat) (hi : i < vs.length) :
    (s.storeBelow a vs).dataWord (wordBelow a i).toNat = vs[i] := by
  induction vs generalizing s a i with
  | nil => cases hi
  | cons v vs ih =>
    rw [List.length_cons] at hlen hi
    have ha' : (a - 4).extractLsb' 0 2 = 0#2 := by rwa [extractLsb'_sub_four]
    cases i with
    | zero =>
      have hkept : ((s.setDataWord (a - 4).toNat v).storeBelow (a - 4) vs).dataWord (a - 4).toNat =
          (s.setDataWord (a - 4).toNat v).dataWord (a - 4).toNat := by
        refine State.dataWord_congr_bytes fun k hk => State.storeBelow_dataByte fun j hj => ?_
        exact not_in_other_word ha' (wordBelow_aligned ha' j) (wordBelow_ne _ (by omega)) hk
      rw [wordBelow_zero]
      exact hkept.trans (s.setDataWord_dataWord _ v)
    | succ i =>
      rw [wordBelow_succ]
      exact ih ha' (by omega) i (by omega)

/-- A push step leaves the other general registers. -/
theorem State.pushed_greg {q : GReg} (h : q ≠ .p .sp) (s : State) (v : Word) : (s.pushed v).greg q = s.greg q :=
  (sameCore_greg (sameCore_pushed s v) q).trans (s.setGreg_greg_of_ne (.p .sp) q _ h)

/-- The push steps of registers other than SP, where every word they need is data memory, are the stores of their values before
the first step, and of SP (40_stack_and_moves.md R166). -/
theorem pushAll_of_holdsWord {rs : List GReg} {s : State} (hsp : .p .sp ∉ rs)
    (hwords : ∀ i < rs.length, s.holdsWord (wordBelow s.sp i)) :
    pushAll rs s = .ok ((s.storeBelow s.sp (rs.map s.greg)).setSp (s.sp - BitVec.ofNat 32 (4 * rs.length))) := by
  induction rs generalizing s with
  | nil => exact congrArg Except.ok ((congrArg s.setSp (BitVec.sub_zero s.sp)).trans s.setSp_self).symm
  | cons r rs ih =>
    obtain ⟨-, hsp'⟩ := List.ne_and_not_mem_of_not_mem_cons hsp
    have hpushed : (s.pushed (s.greg r)).sp = s.sp - 4 := State.setSp_sp ..
    have hregs : rs.map (s.pushed (s.greg r)).greg = rs.map s.greg :=
      List.map_congr_left fun q hq => State.pushed_greg (fun h => hsp' (h ▸ hq)) s _
    have hrest : ∀ i < rs.length, (s.pushed (s.greg r)).holdsWord (wordBelow (s.pushed (s.greg r)).sp i) := by
      intro i hi
      rw [hpushed, ← wordBelow_succ]
      exact (State.holdsWord_congr (State.setSp_plat ..)).2 (hwords (i + 1) (by simpa using hi))
    have hend : s.sp - 4 - BitVec.ofNat 32 (4 * rs.length) = s.sp - BitVec.ofNat 32 (4 * (rs.length + 1)) := by bv_omega
    rw [pushAll, pushWord_of_holdsWord (hwords 0 (by simp))]
    refine (ih hsp' hrest).trans (congrArg Except.ok ?_)
    rw [hpushed, hregs, hend, State.pushed, State.setSp_storeBelow, State.setSp_setSp]
    rfl

/-- Settles O51: the push steps are the stores of the registers, and of SP, and the words stored are apart. -/
theorem pushMultipleCompletes : Obligations.PushMultipleCompletes := by
  intro x y s hsome rs at_ hwords
  have hrun : exec (.pushMultiple x y) s =
      .next (advance 2 ((s.storeBelow s.sp (rs.map s.greg)).setSp (s.sp - BitVec.ofNat 32 (4 * rs.length)))) := by
    show outcome s (runPushMultiple x y s) = _
    rw [runPushMultiple, if_pos hsome, pushAll_of_holdsWord (sp_notMem_multipleRegs x y) hwords]
    rfl
  have halign : s.sp.extractLsb' 0 2 = 0#2 := by
    obtain ⟨hfirst, -⟩ := hwords 0 (List.length_pos_iff.2 (multipleRegs_ne_nil hsome))
    rwa [← extractLsb'_sub_four]
  have hlen : (rs.map s.greg).length < 0x40000000 := by
    have hle : rs.length ≤ 14 := multipleRegs_length_le x y
    rw [List.length_map]
    omega
  obtain ⟨m, hm⟩ := s.storeBelow_eq_setMem s.sp (rs.map s.greg)
  refine ⟨_, hrun, by simp, fun i hi => ?words, fun b hb => ?frame, ?core, by simp [hm], by simp [hm], ?next⟩
  case words =>
    rw [advance_dataWord, State.setSp_dataWord]
    exact (State.storeBelow_dataWord halign hlen i (by simpa using hi)).trans (List.getElem_map ..)
  case frame =>
    rw [advance_dataByte, State.setSp_dataByte]
    exact State.storeBelow_dataByte fun i hi => hb i (by simpa using hi)
  case core =>
    have hstored : sameCore s (s.storeBelow s.sp (rs.map s.greg)) := by
      rw [hm]
      exact sameCore_refl s
    exact sameCore_trans (sameCore_setSp hstored (sameCore_mode hstored) _) (sameCore_advance ..)
  case next => exact goesOn_advance 2 _ s (by simp [hm]) (by simp [hm]) (by simp [hm])

/-! ## The multiple pop -/

/-- The state with registers loaded from words one above the other, the first at the address `a` (40_stack_and_moves.md R167). -/
def State.loadFrom : State → Word → List GReg → State
  | s, _, [] => s
  | s, a, r :: rs => (s.setGreg r (s.dataWord a.toNat)).loadFrom (a + 4) rs

theorem State.setGreg_dataWord (s : State) (r : GReg) (v : Word) (a : Nat) : (s.setGreg r v).dataWord a = s.dataWord a :=
  State.dataWord_congr (State.setGreg_mem ..) (State.setGreg_memEpoch ..) a

/-- A write of a general register other than SP changes the two files and FP alone. -/
theorem State.setGreg_eq_files {r : GReg} (h : r ≠ .p .sp) (s : State) (v : Word) :
    ∃ d p fp, s.setGreg r v = { s with d := d, p := p, fp := fp } := by
  rcases r with i | n | _ | _
  case p.sp => contradiction
  all_goals exact ⟨_, _, _, rfl⟩

/-- Loads of general registers other than SP change the two files and FP alone. -/
theorem State.loadFrom_eq_files {rs : List GReg} (h : .p .sp ∉ rs) (s : State) (a : Word) :
    ∃ d p fp, s.loadFrom a rs = { s with d := d, p := p, fp := fp } := by
  induction rs generalizing s a with
  | nil => exact ⟨s.d, s.p, s.fp, rfl⟩
  | cons r rs ih =>
    obtain ⟨hr, hrs⟩ := List.ne_and_not_mem_of_not_mem_cons h
    obtain ⟨_, _, _, hset⟩ := State.setGreg_eq_files hr.symm s (s.dataWord a.toNat)
    obtain ⟨d, p, fp, hload⟩ := ih hrs (s.setGreg r (s.dataWord a.toNat)) (a + 4)
    exact ⟨d, p, fp, by rw [State.loadFrom, hload, hset]⟩

theorem State.setSp_loadFrom {rs : List GReg} (h : .p .sp ∉ rs) (s : State) (b a : Word) :
    (s.setSp b).loadFrom a rs = (s.loadFrom a rs).setSp b := by
  induction rs generalizing s a with
  | nil => rfl
  | cons r rs ih =>
    obtain ⟨hr, hrs⟩ := List.ne_and_not_mem_of_not_mem_cons h
    rw [State.loadFrom, State.setSp_dataWord, State.setSp_setGreg hr.symm, ih hrs, State.loadFrom]

theorem State.loadFrom_greg_of_notMem {q : GReg} {rs : List GReg} (h : q ∉ rs) (s : State) (a : Word) :
    (s.loadFrom a rs).greg q = s.greg q := by
  induction rs generalizing s a with
  | nil => rfl
  | cons r rs ih =>
    obtain ⟨hr, hrs⟩ := List.ne_and_not_mem_of_not_mem_cons h
    rw [State.loadFrom, ih hrs, State.setGreg_greg_of_ne _ _ _ _ hr]

/-- Each register holds its word: the later loads are of other registers. -/
theorem State.loadFrom_greg {rs : List GReg} (hnodup : rs.Nodup) (s : State) (a : Word) (i : Nat) (hi : i < rs.length) :
    (s.loadFrom a rs).greg rs[i] = s.dataWord (wordAbove a i).toNat := by
  induction rs generalizing s a i with
  | nil => cases hi
  | cons r rs ih =>
    obtain ⟨hr, hrs⟩ := List.nodup_cons.1 hnodup
    rw [State.loadFrom]
    cases i with
    | zero =>
      rw [wordAbove_zero]
      exact (State.loadFrom_greg_of_notMem hr _ _).trans (s.setGreg_greg r _)
    | succ i =>
      rw [wordAbove_succ]
      exact (ih hrs _ _ i (by simpa using hi)).trans (State.setGreg_dataWord ..)

/-- The pop steps of registers other than SP, where every word they need is data memory, are the loads of the registers, and of SP
(40_stack_and_moves.md R167). -/
theorem popAll_of_holdsWord {rs : List GReg} {s : State} (hsp : .p .sp ∉ rs)
    (hwords : ∀ i < rs.length, s.holdsWord (wordAbove s.sp i)) :
    popAll rs s = .ok ((s.loadFrom s.sp rs).setSp (s.sp + BitVec.ofNat 32 (4 * rs.length))) := by
  induction rs generalizing s with
  | nil => exact congrArg Except.ok ((congrArg s.setSp (BitVec.add_zero s.sp)).trans s.setSp_self).symm
  | cons r rs ih =>
    obtain ⟨hr, hsp'⟩ := List.ne_and_not_mem_of_not_mem_cons hsp
    have hpop : popWord s = .ok (s.dataWord s.sp.toNat, s.setSp (s.sp + 4)) :=
      popWord_of_holdsWord (by simpa only [wordAbove_zero] using hwords 0 (by simp))
    have hpopped : ((s.setGreg r (s.dataWord s.sp.toNat)).setSp (s.sp + 4)).sp = s.sp + 4 := State.setSp_sp ..
    have hrest : ∀ i < rs.length, ((s.setGreg r (s.dataWord s.sp.toNat)).setSp (s.sp + 4)).holdsWord
        (wordAbove ((s.setGreg r (s.dataWord s.sp.toNat)).setSp (s.sp + 4)).sp i) := by
      intro i hi
      rw [hpopped, ← wordAbove_succ]
      exact (State.holdsWord_congr (by simp)).2 (hwords (i + 1) (by simpa using hi))
    have hend : s.sp + 4 + BitVec.ofNat 32 (4 * rs.length) = s.sp + BitVec.ofNat 32 (4 * (rs.length + 1)) := by bv_omega
    rw [popAll, hpop]
    show popAll rs ((s.setSp (s.sp + 4)).setGreg r _) = _
    rw [State.setSp_setGreg hr.symm, ih hsp' hrest, hpopped, hend, State.setSp_loadFrom hsp', State.setSp_setSp]
    rfl

/-- Settles O52: the pop steps are the loads of the registers, which are different ones, and of SP. -/
theorem popMultipleCompletes : Obligations.PopMultipleCompletes := by
  intro x y s hsome rs at_ hwords
  have hnotsp : .p .sp ∉ rs := by simpa [rs] using sp_notMem_multipleRegs x y
  have hnodup : rs.Nodup := List.nodup_reverse.2 (multipleRegs_nodup x y)
  have hrun : exec (.popMultiple x y) s =
      .next (advance 2 ((s.loadFrom s.sp rs).setSp (s.sp + BitVec.ofNat 32 (4 * rs.length)))) := by
    show outcome s (runPopMultiple x y s) = _
    rw [runPopMultiple, if_pos hsome, popAll_of_holdsWord hnotsp hwords]
    rfl
  have hgreg (q : GReg) (hq : q ≠ .p .sp) :
      (advance 2 ((s.loadFrom s.sp rs).setSp (s.sp + BitVec.ofNat 32 (4 * rs.length)))).greg q = (s.loadFrom s.sp rs).greg q :=
    (sameCore_greg (sameCore_advance ..) q).trans (State.setGreg_greg_of_ne _ (.p .sp) q _ hq)
  refine ⟨_, hrun, by simp, fun i hi => ?loaded, fun q hq hne => ?others, ?_⟩
  case loaded =>
    rw [hgreg _ fun h => hnotsp (h ▸ List.getElem_mem hi)]
    exact State.loadFrom_greg hnodup s s.sp i hi
  case others => rw [hgreg q hne, State.loadFrom_greg_of_notMem hq]
  obtain ⟨d, p, fp, hload⟩ := State.loadFrom_eq_files hnotsp s s.sp
  have hmode : (s.loadFrom s.sp rs).mode = s.mode := State.mode_congr (by rw [hload])
  refine ⟨?otherSp, ?returns, by simp [hload], by simp [hload], by simp [hload], ?events, ?world, by simp [hload],
    by simp [hload], fun b => ?memory, ?next⟩
  case otherSp => split <;> simp_all
  case returns => simp [keepsReturns, hload]
  case events => simp [keepsEvents, hload]
  case world => simp [keepsWorld, hload]
  case memory =>
    rw [advance_dataByte, State.setSp_dataByte, hload]
    rfl
  case next => exact goesOn_advance 2 _ s (by simp [hload]) (by simp [hload]) (by simp [hload])

/-! ## The multiple pop after the multiple push -/

/-- The general registers are kept where each reads as before, and so does the stack pointer of the other mode. -/
theorem keepsGeneral_of_greg {s u : State} (hmode : u.mode = s.mode) (hgreg : ∀ q, u.greg q = s.greg q)
    (hother : if s.mode = .user then u.ssp = s.ssp else u.usp = s.usp) : keepsGeneral s u := by
  have hsp : u.sp = s.sp := hgreg (.p .sp)
  refine ⟨Vector.ext fun i hi => hgreg (.d ⟨i, hi⟩), Vector.ext fun i hi => hgreg (.p (.p ⟨i, hi⟩)), ?_, ?_, hgreg (.p .fp)⟩
  all_goals
    unfold State.sp at hsp
    rw [hmode] at hsp
    split_ifs at hsp hother <;> assumption

/-- Settles O53: the words the pop loads are those the push stored, in the reverse order of the registers, and neither statement
changes another register. -/
theorem popMultipleUndoesPushMultiple : Obligations.PopMultipleUndoesPushMultiple := by
  intro x y s t hsome hwords hpush
  have hpushes := pushMultipleCompletes x y s hsome hwords
  have hpops := popMultipleCompletes x y t hsome
  generalize multipleRegs x y = rs at hwords hpushes hpops
  obtain ⟨t₀, hpush', hsp, hstored, -, hcore, -⟩ := hpushes
  obtain rfl : t = t₀ := Host.Outcome.next.inj (hpush.symm.trans hpush')
  have hlen : rs.reverse.length = rs.length := List.length_reverse
  have hword {i : Nat} (hi : i < rs.length) :
      t.sp + BitVec.ofNat 32 (4 * i) = wordBelow s.sp (rs.length - 1 - i) := by
    rw [hsp]
    exact wordAbove_sub s.sp hi
  have hplat : t.plat = s.plat := by
    obtain ⟨-, -, -, -, -, -, -, -, hplat, -, -⟩ := hcore
    rw [hplat, State.setSp_plat]
  have hwords' : ∀ i < rs.reverse.length, t.holdsWord (t.sp + BitVec.ofNat 32 (4 * i)) := by
    intro i hi
    rw [hlen] at hi
    rw [hword hi, State.holdsWord_congr hplat]
    exact hwords _ (by omega)
  obtain ⟨u, hpop, husp, hloaded, hothers, hother, -, -, -, -, ⟨-, -, hipend, -, -⟩, -⟩ := hpops hwords'
  have hmode : t.mode = s.mode := (sameCore_mode hcore).trans (State.setSp_mode ..)
  have hrestored (j : Nat) (hj : j < rs.length) : u.greg rs[j] = s.greg rs[j] := by
    have hindex : rs.length - 1 - (rs.length - 1 - j) = j := by omega
    have hload := hloaded (rs.length - 1 - j) (by omega)
    simp only [List.getElem_reverse, hword (show rs.length - 1 - j < rs.length by omega), hindex] at hload
    exact hload.trans (hstored j hj)
  refine ⟨u, hpop, keepsGeneral_of_greg ((State.mode_congr hipend).trans hmode) (fun q => ?_) ?_⟩
  · by_cases hqsp : q = .p .sp
    · subst hqsp
      show u.sp = s.sp
      rw [husp, hsp, hlen]
      exact BitVec.sub_add_cancel ..
    by_cases hq : q ∈ rs
    · obtain ⟨j, hj, rfl⟩ := List.getElem_of_mem hq
      exact hrestored j hj
    · rw [hothers q (by simpa using hq) hqsp, sameCore_greg hcore]
      exact State.setGreg_greg_of_ne _ (.p .sp) q _ hqsp
  · obtain ⟨⟨-, -, hssp, husp', -⟩, -⟩ := hcore
    rw [hmode] at hother
    split_ifs at hother ⊢ with huser
    · rw [hother, hssp, State.setSp_ssp, if_pos huser]
    · rw [hother, husp', State.setSp_usp, if_neg huser]

end Sys2Proof.Machine

/-! # Jumps, calls and RTS that complete (41_jumps_calls.md) -/

namespace Sys2Proof.Machine

/-! ## The meanings as transfers, with the offset as a number -/

theorem exec_jumpS (off : BitVec 12) (s : State) :
    exec (.jumpS off) s = takeTransfer (s.pc + BitVec.ofInt 32 (2 * off.toInt)) s := by
  rw [← offset13_eq]
  rfl

theorem exec_jumpL (off : BitVec 24) (s : State) :
    exec (.jumpL off) s = takeTransfer (s.pc + BitVec.ofInt 32 (2 * off.toInt)) s := by
  rw [← offset25_eq]
  rfl

theorem exec_jumpP (p : PReg) (s : State) : exec (.jumpP p) s = takeTransfer (s.preg p) s := rfl

theorem exec_jumpPcP (p : PReg) (s : State) : exec (.jumpPcP p) s = takeTransfer (s.pc + s.preg p) s := rfl

theorem exec_rts (s : State) : exec .rts s = takeTransfer s.rets s := rfl

theorem exec_call (off : BitVec 24) (s : State) :
    exec (.call off) s = callTo 4 (s.pc + BitVec.ofInt 32 (2 * off.toInt)) s := by
  rw [← offset25_eq]
  rfl

theorem exec_callP (p : PReg) (s : State) : exec (.callP p) s = callTo 2 (s.preg p) s := rfl

theorem exec_callPcP (p : PReg) (s : State) : exec (.callPcP p) s = callTo 2 (s.pc + s.preg p) s := rfl

/-! ## Transfers that complete -/

/-- A jump that has a meaning goes to its target and changes nothing else (00_scope.md R10; 43_loops.md R259). -/
theorem takeTransfer_completes (target : Word) {s : State} (h : s.transferHasMeaning) :
    ∃ t, takeTransfer target s = .next t ∧ goesTo target s t ∧ sameButFlow s t :=
  ⟨_, takeTransfer_goesTo target h rfl (fun _ => rfl) rfl⟩

/-- A call that has a meaning is the write of RETS, which no loop unit reads, and then a transfer to its target
(41_jumps_calls.md R200, R210). -/
theorem callTo_completes (len target : Word) {s : State} (h : s.transferHasMeaning) :
    ∃ t, callTo len target s = .next t ∧ t.rets = s.pc + len ∧ goesTo target s t ∧
      sameButFlow (s.setRets (s.pc + len)) t := by
  have hloop (k : LoopIdx) : (s.setRets (s.pc + len)).loop k = s.loop k := by cases k <;> rfl
  obtain ⟨hnext, hgoes, hsame⟩ := takeTransfer_goesTo target h (State.setRets_pc ..) hloop (State.setRets_plat ..)
  exact ⟨_, hnext, by simp, hgoes, hsame⟩

/-! ## The statements -/

/-- Settles O32: each jump, and RTS, is one transfer to the target the statement names. -/
theorem jumpsAndRtsComplete : Obligations.JumpsAndRtsComplete := by
  intro s h
  refine ⟨fun off => ?jumpS, fun off => ?jumpL, fun p => ?jumpP, fun p => ?jumpPcP, ?rts⟩
  case jumpS => exact exec_jumpS off s ▸ takeTransfer_completes _ h
  case jumpL => exact exec_jumpL off s ▸ takeTransfer_completes _ h
  case jumpP => exact exec_jumpP p s ▸ takeTransfer_completes _ h
  case jumpPcP => exact exec_jumpPcP p s ▸ takeTransfer_completes _ h
  case rts => exact exec_rts s ▸ takeTransfer_completes _ h

/-- Settles O33: each call is the write of RETS, with the length of its own encoding, and one transfer to the target that the
registers before it give. -/
theorem callsComplete : Obligations.CallsComplete := by
  intro s h
  refine ⟨fun off => ?call, fun p => ?callP, fun p => ?callPcP⟩
  case call => exact exec_call off s ▸ callTo_completes 4 _ h
  case callP => exact exec_callP p s ▸ callTo_completes 2 _ h
  case callPcP => exact exec_callPcP p s ▸ callTo_completes 2 _ h

end Sys2Proof.Machine

/-! # The condition code: compares, conditional jumps and conditional moves (42_condition_code.md) -/

namespace Sys2Proof.Machine

/-! ## The relations and their constants (42_condition_code.md R220; 30_encoding.md R135) -/

theorem signedImm_toInt (f : BitVec 3) : (signedImm f).toInt = f.toInt :=
  BitVec.toInt_signExtend_of_le (by decide)

theorem unsignedImm_toNat (f : BitVec 3) : (unsignedImm f).toNat = f.toNat :=
  BitVec.toNat_setWidth_of_le (by decide)

theorem relEq_iff {a b : Word} : relEq a b = true ↔ a = b :=
  decide_eq_true_iff

theorem relLt_iff {a b : Word} : relLt a b = true ↔ a.toInt < b.toInt :=
  decide_eq_true_iff

theorem relLe_iff {a b : Word} : relLe a b = true ↔ a.toInt ≤ b.toInt :=
  decide_eq_true_iff

theorem relLtu_iff {a b : Word} : relLtu a b = true ↔ a.toNat < b.toNat :=
  decide_eq_true_iff

theorem relLeu_iff {a b : Word} : relLeu a b = true ↔ a.toNat ≤ b.toNat :=
  decide_eq_true_iff

theorem relEq_signedImm {a : Word} {f : BitVec 3} : relEq a (signedImm f) = true ↔ a.toInt = f.toInt := by
  rw [relEq_iff, ← BitVec.toInt_inj, signedImm_toInt]

theorem relLt_signedImm {a : Word} {f : BitVec 3} : relLt a (signedImm f) = true ↔ a.toInt < f.toInt := by
  rw [relLt_iff, signedImm_toInt]

theorem relLe_signedImm {a : Word} {f : BitVec 3} : relLe a (signedImm f) = true ↔ a.toInt ≤ f.toInt := by
  rw [relLe_iff, signedImm_toInt]

theorem relLtu_unsignedImm {a : Word} {f : BitVec 3} : relLtu a (unsignedImm f) = true ↔ a.toNat < f.toNat := by
  rw [relLtu_iff, unsignedImm_toNat]

theorem relLeu_unsignedImm {a : Word} {f : BitVec 3} : relLeu a (unsignedImm f) = true ↔ a.toNat ≤ f.toNat := by
  rw [relLeu_iff, unsignedImm_toNat]

/-! ## Compares -/

/-- CC is the flag of ASTAT, which going on keeps. -/
@[simp] theorem advance_cc (len : Word) (s : State) : (advance len s).cc = s.cc :=
  congrArg Astat.cc (advance_astat len s)

/-- A compare of data registers whose result decides `p` completes: it writes ASTAT, counts a draw and goes on
(42_condition_code.md R221). -/
theorem finishCompareD_completes {c : Bool} {p : Prop} (s : State) (hc : c = true ↔ p) :
    ∃ t hi lo, finishCompareD c s = .next t ∧ (t.cc = true ↔ p) ∧ t.astat = ⟨hi, t.cc, lo⟩ ∧ goesOn 2 s t ∧
      sameButFlow (s.setAstat t.astat) t := by
  refine ⟨advance 2 (s.compareD c), _, _, rfl, ?cc, rfl, goesOn_advance 2 _ s rfl rfl rfl, ?same⟩
  case cc => rwa [advance_cc]
  case same =>
    rw [advance_astat]
    exact sameButFlow_advance 2 (s.compareD c)

/-- A compare of pointer registers whose result decides `p` completes: it writes CC and goes on (42_condition_code.md R221). -/
theorem finishCompareP_completes {c : Bool} {p : Prop} (s : State) (hc : c = true ↔ p) :
    ∃ t, finishCompareP c s = .next t ∧ (t.cc = true ↔ p) ∧ goesOn 2 s t ∧
      sameButFlow (s.setAstat ⟨s.astat.hi, t.cc, s.astat.lo⟩) t := by
  refine ⟨advance 2 (s.compareP c), rfl, ?cc, goesOn_advance 2 _ s rfl rfl rfl, ?same⟩
  case cc => rwa [advance_cc]
  case same =>
    rw [advance_cc]
    exact sameButFlow_advance 2 (s.compareP c)

/-- Settles O40: each compare finishes with one of the five relations, whose constant is signed or unsigned as the form is. -/
theorem dataComparesComplete : Obligations.DataComparesComplete := by
  intro s x
  have ends {c : Bool} {p : Prop} := @finishCompareD_completes c p s
  exact ⟨fun _ => ⟨ends relEq_iff, ends relLt_iff, ends relLe_iff, ends relLtu_iff, ends relLeu_iff⟩,
    fun _ => ⟨ends relEq_signedImm, ends relLt_signedImm, ends relLe_signedImm, ends relLtu_unsignedImm,
      ends relLeu_unsignedImm⟩⟩

/-- Settles O41: the same relations, of pointer registers. -/
theorem pointerComparesComplete : Obligations.PointerComparesComplete := by
  intro s x
  have ends {c : Bool} {p : Prop} := @finishCompareP_completes c p s
  exact ⟨fun _ => ⟨ends relEq_iff, ends relLt_iff, ends relLe_iff, ends relLtu_iff, ends relLeu_iff⟩,
    fun _ => ⟨ends relEq_signedImm, ends relLt_signedImm, ends relLe_signedImm, ends relLtu_unsignedImm,
      ends relLeu_unsignedImm⟩⟩

/-! ## Conditional jumps -/

/-- A conditional jump that has a meaning if taken is a transfer or goes on, and changes nothing else (42_condition_code.md
R233, R234). -/
theorem branch_completes {taken : Bool} (off : BitVec 10) {s : State} (h : taken = true → s.transferHasMeaning) :
    ∃ t, branch taken off s = .next t ∧ sameButFlow s t ∧
      if taken then goesTo (s.pc + BitVec.ofInt 32 (2 * off.toInt)) s t else goesOn 2 s t := by
  rw [branch, offset11_eq]
  cases taken with
  | false => exact ⟨advance 2 s, rfl, sameButFlow_advance 2 s, rfl, rfl, rfl⟩
  | true =>
    obtain ⟨t, hnext, hgoes, hsame⟩ := takeTransfer_completes (s.pc + BitVec.ofInt 32 (2 * off.toInt)) (h rfl)
    exact ⟨t, hnext, hsame, hgoes⟩

/-- Settles O42: IF CC JUMP branches on CC and IF !CC JUMP on its negation; neither reads (bp) (42_condition_code.md R236). -/
theorem conditionalJumpsComplete : Obligations.ConditionalJumpsComplete := by
  intro bp off s
  refine ⟨fun h => branch_completes off h, fun h => ?ifNot⟩
  case ifNot =>
    obtain ⟨t, hnext, hsame, hflow⟩ := branch_completes (taken := !s.cc) off fun hcc => h (by simpa using hcc)
    refine ⟨t, hnext, hsame, ?_⟩
    cases hcc : s.cc <;> simpa [hcc] using hflow

/-! ## Conditional moves -/

/-- To write a register with its own value changes nothing. -/
theorem State.setGreg_self (s : State) (r : GReg) : s.setGreg r (s.greg r) = s := by
  rcases r with i | n | _ | _
  · simp [State.setGreg, State.greg, State.dreg, State.setD, Vector.get_eq_getElem]
  · simp [State.setGreg, State.greg, State.setPreg, State.preg, State.setP, Vector.get_eq_getElem]
  · show s.setSp s.sp = s
    unfold State.setSp State.sp
    split <;> rfl
  · rfl

/-- A write of a general register leaves the stack pointer that SP does not name in this mode (10_state.md R24). -/
theorem State.setGreg_other_sp (s : State) (r : GReg) (v : Word) :
    if s.mode = .user then (s.setGreg r v).ssp = s.ssp else (s.setGreg r v).usp = s.usp := by
  rcases r with i | n | _ | _
  case p.sp => split <;> simp [State.setGreg, State.setPreg, *]
  all_goals split <;> rfl

/-- A conditional move, made or not, is one write of its destination. -/
theorem moveIf_eq_setGreg (c : Bool) (dst src : GReg) (s : State) :
    moveIf c dst src s = .next (advance 2 (s.setGreg dst (if c then s.greg src else s.greg dst))) := by
  cases c with
  | false => exact congrArg (fun u => Host.Outcome.next (advance 2 u)) (s.setGreg_self dst).symm
  | true => rfl

/-- A conditional move completes: the destination takes the source or its own value, and all else is kept
(42_condition_code.md R238, R239). -/
theorem moveIf_completes (c : Bool) (dst src : GReg) (s : State) :
    ∃ t, moveIf c dst src s = .next t ∧ t.greg dst = (if c then s.greg src else s.greg dst) ∧
      (∀ q, q ≠ dst → t.greg q = s.greg q) ∧ (if s.mode = .user then t.ssp = s.ssp else t.usp = s.usp) ∧
      keepsReturns s t ∧ t.seqstat = s.seqstat ∧ t.syscfg = s.syscfg ∧ t.astat = s.astat ∧ keepsEvents s t ∧
      keepsWorld s t ∧ t.cycles = s.cycles ∧ t.cycles2 = s.cycles2 ∧ keepsMemory s t ∧ goesOn 2 s t := by
  rw [moveIf_eq_setGreg]
  generalize (if c then s.greg src else s.greg dst) = v
  have hgreg (q : GReg) : (advance 2 (s.setGreg dst v)).greg q = (s.setGreg dst v).greg q :=
    sameCore_greg (sameCore_advance 2 _) q
  refine ⟨_, rfl, ?moved, fun q hq => ?others, ?sp, ?returns, by simp, by simp, by simp, ?events, ?world, by simp, by simp,
    fun a => ?memory, goesOn_advance 2 _ s (by simp) (by simp) (by simp)⟩
  case moved => rw [hgreg, State.setGreg_greg]
  case others => rw [hgreg, State.setGreg_greg_of_ne s dst q v hq]
  case sp => simpa using s.setGreg_other_sp dst v
  case returns => simp [keepsReturns]
  case events => simp [keepsEvents]
  case world => simp [keepsWorld]
  case memory =>
    rw [advance_dataByte]
    exact State.dataByte_congr (by simp) (by simp) a

/-- Settles O43: one conditional move on CC, one on its negation. -/
theorem conditionalMovesComplete : Obligations.ConditionalMovesComplete :=
  fun dst src s => ⟨moveIf_completes s.cc dst src s, moveIf_completes (!s.cc) dst src s⟩

end Sys2Proof.Machine

/-! # The loop units: the next address, transfers at a loop end, and LSETUP (43_loops.md) -/

namespace Sys2Proof.Machine

/-! ## The next address, field by field -/

theorem loopsBack_iff {s : State} {k : LoopIdx} :
    s.loopsBack k = true ↔ s.pc = (s.loop k).lb ∧ 2 ≤ (s.loop k).lc.toNat := by
  simp [State.loopsBack]

theorem two_le_toNat_iff {lc : Word} : 2 ≤ lc.toNat ↔ ¬ (lc = 0 ∨ lc = 1) := by
  bv_omega

theorem loopsBack_of_zero_or_one {s : State} {k : LoopIdx} (h : (s.loop k).lc = 0 ∨ (s.loop k).lc = 1) :
    s.loopsBack k = false :=
  Bool.eq_false_iff.2 fun hback => two_le_toNat_iff.1 (loopsBack_iff.1 hback).2 h

theorem loopsBack_of_inert {s : State} {k : LoopIdx} (h : s.pc ≠ (s.loop k).lb ∨ (s.loop k).lc = 0) :
    s.loopsBack k = false :=
  Bool.eq_false_iff.2 fun hback =>
    have ⟨hlb, hlc⟩ := loopsBack_iff.1 hback
    h.elim (fun hne => hne hlb) fun hzero => two_le_toNat_iff.1 hlc (.inl hzero)

theorem loopsBack_congr {s u : State} {k : LoopIdx} (hpc : u.pc = s.pc) (hloop : u.loop k = s.loop k) :
    u.loopsBack k = s.loopsBack k := by
  rw [State.loopsBack, State.loopsBack, hpc, hloop]

/-- A unit that does not loop back counts down at its active end all the same: there its LC is 1 (43_loops.md R256). -/
theorem countDown_of_not_back {pc lb lc : Word} (h : ¬ (pc = lb ∧ 2 ≤ lc.toNat)) :
    (if pc = lb ∧ lc = 1 then 0 else lc) = if pc = lb ∧ lc ≠ 0 then lc - 1 else lc := by
  rw [two_le_toNat_iff] at h
  by_cases hpc : pc = lb
  · obtain rfl | rfl : lc = 0 ∨ lc = 1 := by simpa only [hpc, true_and, not_not] using h
    · simp
    · simp [hpc]
  · simp [hpc]

/-- The address of `NextPC`: the top of the unit that loops back, unit 1 first, or `pc + len` (43_loops.md R256). -/
theorem advance_pc (len : Word) (s : State) :
    (advance len s).pc =
      if s.loopsBack .l1 then s.loop1.lt else if s.loopsBack .l0 then s.loop0.lt else s.pc + len := by
  simp only [loopsBack_iff, State.loop]
  rcases advance_cases len s with ⟨h1, hpc, -⟩ | ⟨h1, -, ⟨h0, hpc, -⟩ | ⟨h0, hpc, -⟩⟩
  · rw [hpc, if_pos h1]
  · rw [hpc, if_neg h1, if_pos h0]
  · rw [hpc, if_neg h1, if_neg h0]

/-- Unit 1 counts down whenever an instruction ends at its active end. -/
theorem advance_loop1 (len : Word) (s : State) :
    (advance len s).loop1 =
      ⟨if s.pc = s.loop1.lb ∧ s.loop1.lc ≠ 0 then s.loop1.lc - 1 else s.loop1.lc, s.loop1.lt, s.loop1.lb⟩ := by
  rcases advance_cases len s with ⟨⟨hlb, hlc⟩, -, hloop, -⟩ | ⟨h1, hloop, -⟩
  · have hne : s.loop1.lc ≠ 0 := fun h => two_le_toNat_iff.1 hlc (.inl h)
    rw [hloop, if_pos ⟨hlb, hne⟩]
  · rw [hloop, countDown_of_not_back h1]

/-- Unit 0 counts down as well, but not while unit 1 loops back (43_loops.md R255). -/
theorem advance_loop0 (len : Word) (s : State) :
    (advance len s).loop0 =
      if s.loopsBack .l1 then s.loop0
      else ⟨if s.pc = s.loop0.lb ∧ s.loop0.lc ≠ 0 then s.loop0.lc - 1 else s.loop0.lc, s.loop0.lt, s.loop0.lb⟩ := by
  simp only [loopsBack_iff, State.loop]
  rcases advance_cases len s with ⟨h1, -, -, hloop⟩ | ⟨h1, -, ⟨⟨hlb, hlc⟩, -, hloop⟩ | ⟨h0, -, hloop⟩⟩
  · rw [hloop, if_pos h1]
  · have hne : s.loop0.lc ≠ 0 := fun h => two_le_toNat_iff.1 hlc (.inl h)
    rw [hloop, if_neg h1, if_pos ⟨hlb, hne⟩]
  · rw [hloop, if_neg h1, countDown_of_not_back h0]

/-! ## The statements on the next address -/

/-- Settles O35: the clauses are the cases of `NextPC`. -/
theorem nextAddress : Obligations.NextAddress := by
  intro len s t back1 back0
  have hkeep : t.loop0.lt = s.loop0.lt ∧ t.loop0.lb = s.loop0.lb ∧ t.loop1.lt = s.loop1.lt ∧ t.loop1.lb = s.loop1.lb :=
    ⟨(advance_lt_lb len .l0 s).1, (advance_lt_lb len .l0 s).2, advance_lt_lb len .l1 s⟩
  have hpred {lc : Word} (h : 2 ≤ lc.toNat) : (lc - 1).toNat + 1 = lc.toNat := by bv_omega
  rcases advance_cases len s with ⟨h1, hpc, hloop1, hloop0⟩ | ⟨h1, hloop1, ⟨h0, hpc, hloop0⟩ | ⟨h0, hpc, hloop0⟩⟩
  · exact ⟨fun _ => ⟨hpc, hloop1 ▸ hpred h1.2, hloop0⟩, fun h => absurd h1 h, fun h => absurd h1 h.1,
      fun h => absurd h1 h, hkeep⟩
  · exact ⟨fun h => absurd h h1, fun _ => congrArg LoopUnit.lc hloop1, fun _ => ⟨hpc, hloop0 ▸ hpred h0.2⟩,
      fun _ h => absurd ⟨h1, h0⟩ h, hkeep⟩
  · exact ⟨fun h => absurd h h1, fun _ => congrArg LoopUnit.lc hloop1, fun h => absurd h.2 h0,
      fun _ _ => ⟨hpc, congrArg LoopUnit.lc hloop0⟩, hkeep⟩

/-- Settles O36: neither unit loops back. -/
theorem countsZeroAndOneRunOnce : Obligations.CountsZeroAndOneRunOnce := by
  intro len s h0 h1
  simp [advance_pc, loopsBack_of_zero_or_one (k := .l0) h0, loopsBack_of_zero_or_one (k := .l1) h1]

/-- Settles O37: unit 1 loops back, or it expires and unit 0 loops back. -/
theorem innerLoopGoesFirst : Obligations.InnerLoopGoesFirst := by
  intro len s hlb0 hlb1 hlc0
  refine ⟨fun hlc1 => ?inner, fun hlc1 => ?outer⟩
  case inner =>
    have hback : s.loopsBack .l1 = true := loopsBack_iff.2 ⟨hlb1, hlc1⟩
    rw [advance_pc, advance_loop0, if_pos hback, if_pos hback]
    exact ⟨rfl, rfl⟩
  case outer =>
    have h1 : s.loop1.lc = 0 ∨ s.loop1.lc = 1 := not_not.1 fun h => absurd (two_le_toNat_iff.2 h) (by omega)
    have hstay : s.loopsBack .l1 = false := loopsBack_of_zero_or_one h1
    have hback : s.loopsBack .l0 = true := loopsBack_iff.2 ⟨hlb0, hlc0⟩
    have hne : s.loop0.lc ≠ 0 := fun h => two_le_toNat_iff.1 hlc0 (.inl h)
    refine ⟨?pc, ?lc1, ?lc0⟩
    case pc => simp [advance_pc, hstay, hback]
    case lc1 => rcases h1 with h | h <;> simp [advance_loop1, h, hlb1]
    case lc0 => rw [advance_loop0, hstay, if_neg Bool.false_ne_true, if_pos ⟨hlb0, hne⟩]

/-! ## A loop of one instruction -/

/-- The instruction at `pc` is the whole body of unit 1, which has `c` runs of it left, and unit 0 takes no part. -/
structure Spins (pc : Word) (c : Nat) (s : State) : Prop where
  pc_eq : s.pc = pc
  count : s.loop1.lc.toNat = c
  top : s.loop1.lt = pc
  bottom : s.loop1.lb = pc
  alone : pc = s.loop0.lb → s.loop0.lc = 0

/-- A completion of the instruction counts a run off. -/
theorem Spins.counts {pc : Word} {c : Nat} {s : State} (h : Spins pc (c + 1) s) (len : Word) :
    (advance len s).loop1.lc.toNat = c := by
  obtain ⟨hpc, hcount, -, hbottom, -⟩ := h
  have hne : s.loop1.lc ≠ 0 := fun h0 => by simp [h0] at hcount
  simp only [advance_loop1, hpc, hbottom, hne, ne_eq, not_false_eq_true, and_self, if_true]
  bv_omega

/-- With more runs left the loop goes on as it was (43_loops.md R252, R253). -/
theorem Spins.next {pc : Word} {c : Nat} {s : State} (h : Spins pc (c + 2) s) (len : Word) :
    Spins pc (c + 1) (advance len s) := by
  have hback : s.loopsBack .l1 = true := loopsBack_iff.2
    ⟨h.pc_eq.trans h.bottom.symm, by show 2 ≤ s.loop1.lc.toNat; rw [h.count]; omega⟩
  have hloop0 : (advance len s).loop0 = s.loop0 := by rw [advance_loop0, if_pos hback]
  obtain ⟨hlt, hlb⟩ := advance_lt_lb len .l1 s
  exact {
    pc_eq := by rw [advance_pc, if_pos hback, h.top]
    count := h.counts len
    top := hlt.trans h.top
    bottom := hlb.trans h.bottom
    alone := hloop0 ▸ h.alone }

/-- The last run goes past the instruction (43_loops.md R254). -/
theorem Spins.past {pc : Word} {s : State} (h : Spins pc 1 s) (len : Word) :
    (advance len s).pc = pc + len ∧ (advance len s).loop1.lc = 0 := by
  have hstay1 : s.loopsBack .l1 = false :=
    loopsBack_of_zero_or_one (.inr (BitVec.eq_of_toNat_eq h.count))
  have hstay0 : s.loopsBack .l0 = false :=
    loopsBack_of_inert (or_iff_not_imp_left.2 fun hlb => h.alone (h.pc_eq ▸ not_not.1 hlb))
  refine ⟨?_, BitVec.eq_of_toNat_eq (h.counts len)⟩
  simp [advance_pc, hstay1, hstay0, h.pc_eq]

/-- Each of the first `n` completions leaves the loop with a run less. -/
theorem Spins.iterate {pc : Word} {n : Nat} {s : State} (h : Spins pc (n + 1) s) (len : Word) {m : Nat} (hm : m ≤ n) :
    Spins pc (n + 1 - m) ((advance len)^[m] s) := by
  induction m with
  | zero => exact h
  | succ m ih =>
    rw [Function.iterate_succ_apply', show n + 1 - (m + 1) = (n - (m + 1)) + 1 by omega]
    refine Spins.next ?_ len
    rw [show n - (m + 1) + 2 = n + 1 - m by omega]
    exact ih (by omega)

/-- Settles O38, by induction on the completions (`Spins.iterate`). -/
theorem loopRunsCountTimes : Obligations.LoopRunsCountTimes := by
  intro len n s hcount hbottom htop halone
  have hspins : Spins s.pc (n + 1) s := ⟨rfl, hcount, htop.trans hbottom.symm, hbottom.symm, halone⟩
  refine ⟨fun m hm => ⟨(hspins.iterate len hm).pc_eq, (hspins.iterate len hm).count⟩, ?last⟩
  case last =>
    have hone : Spins s.pc 1 ((advance len)^[n] s) := by simpa using hspins.iterate len le_rfl
    rw [Function.iterate_succ_apply']
    exact hone.past len

/-! ## Transfers at a loop end (43_loops.md R259) -/

/-- A transfer at no active loop end keeps the units under every value of LOOP_END_TRANSFER. -/
theorem transferLoops_of_no_active_end {s : State} (h : ∀ k, s.pc = (s.loop k).lb → (s.loop k).lc = 0) :
    transferLoops s = s := by
  have hend (k : LoopIdx) : s.decrementAtEnd k = s := if_neg (by simpa [State.atActiveEnd] using h k)
  unfold transferLoops
  split
  · rfl
  · rfl
  · rw [hend, hend]

theorem transferLoops_of_transferWins {s : State} (h : s.plat.loopEndTransfer = .transferWins) : transferLoops s = s := by
  simp [transferLoops, h]

theorem transferHasMeaning_of_ne {s : State} (h : s.plat.loopEndTransfer ≠ .refuse) : s.transferHasMeaning :=
  fun hrefuse => absurd hrefuse h

theorem takeTransfer_of_hasMeaning (target : Word) {s : State} (h : s.transferHasMeaning) :
    takeTransfer target s = .next (transfer target s) :=
  (takeTransfer_goesTo target h rfl (fun _ => rfl) rfl).1

/-- A call writes RETS, which the refusal does not read. -/
theorem callTo_refused (len target : Word) {s : State} (h : s.plat.loopEndTransfer = .refuse)
    (hend : ∃ k, s.pc = (s.loop k).lb ∧ (s.loop k).lc ≠ 0) : callTo len target s = .refused .loopEndTransfer :=
  takeTransfer_refused target (u := s.setRets (s.pc + len)) h hend

/-- A conditional jump that is taken is refused as a jump is. -/
theorem branch_refused {taken : Bool} (htaken : taken = true) (off : BitVec 10) {s : State}
    (h : s.plat.loopEndTransfer = .refuse) (hend : ∃ k, s.pc = (s.loop k).lb ∧ (s.loop k).lc ≠ 0) :
    branch taken off s = .refused .loopEndTransfer := by
  rw [branch, if_pos htaken]
  exact takeTransfer_refused _ h hend

/-- The event being serviced is the level: the first of the levels whose bit of IPEND is set (44_event_instructions.md R294). -/
theorem State.servicing.level_eq {s : State} {n : Fin 16} (h : s.servicing n) : s.level = some n := by
  obtain ⟨hne, hbit, hlower⟩ := h
  obtain ⟨before, after, hsplit⟩ := List.append_of_mem ((mem_eventLevels n).2 hne)
  have hsorted := eventLevels_sorted
  rw [hsplit, List.pairwise_append] at hsorted
  obtain ⟨-, -, hlt⟩ := hsorted
  refine List.find?_eq_some_iff_append.2 ⟨hbit, before, after, hsplit, fun m hm => ?_⟩
  have hmem : m ∈ eventLevels := hsplit ▸ List.mem_append_left _ hm
  rw [hlower m (hlt m hm n List.mem_cons_self) ((mem_eventLevels m).1 hmem), Bool.not_false]

/-- An event is serviced outside User mode (60_exceptions.md R420). -/
theorem State.servicing.mode_ne_user {s : State} {n : Fin 16} (h : s.servicing n) : s.mode ≠ .user := by
  obtain ⟨hne, hbit, -⟩ := h
  have hmask : ∀ n : Fin 16, n ≠ 4 → (0xFFEF#16).getLsbD n.val = true := by decide
  intro huser
  have hclear : (s.ipend &&& 0xFFEF#16).getLsbD n.val = false := by rw [State.user_low huser, BitVec.getLsbD_zero]
  rw [BitVec.getLsbD_and, hbit, hmask n hne] at hclear
  exact absurd hclear (by decide)

/-- A return instruction at its own level returns from the event (44_event_instructions.md R294). -/
theorem State.servicing.returnInstr_eq {s : State} {n : Fin 16} (h : s.servicing n) {own : Fin 16 → Bool} (hown : own n = true)
    (also : BitVec 16) (target : Word) : returnInstr own also target s = returnFromEvent n also target s := by
  simp [returnInstr, supervisorOnly, h.mode_ne_user, h.level_eq, hown]

/-- A return from an event at its own level writes IPEND, which the refusal does not read. -/
theorem State.servicing.returnInstr_refused {s : State} {n : Fin 16} (hs : s.servicing n) {own : Fin 16 → Bool}
    (hown : own n = true) (also : BitVec 16) (target : Word) (h : s.plat.loopEndTransfer = .refuse)
    (hend : ∃ k, s.pc = (s.loop k).lb ∧ (s.loop k).lc ≠ 0) :
    returnInstr own also target s = .refused .loopEndTransfer :=
  (hs.returnInstr_eq hown also target).trans
    (takeTransfer_refused target (u := s.setIpend (s.ipend &&& ~~~((1#16 <<< n.val) ||| also))) h hend)

/-- Settles O34: under each value of LOOP_END_TRANSFER a jump, a call, a taken conditional jump and a return are one transfer. -/
theorem transferAtLoopEnd : Obligations.TransferAtLoopEnd := by
  refine ⟨fun target s h => ?inactive, fun target s h => ?wins, fun target s h => ?decrements,
    fun s h hend => ⟨fun i hi => ?transfers, fun n hn hs => ?rti, fun hs => ?rtx, fun hs => ?rtn, fun hs => ?rte⟩⟩
  case inactive =>
    rw [takeTransfer_of_hasMeaning target fun _ => h, transfer, transferLoops_of_no_active_end h]
  case wins =>
    have hmeaning : s.transferHasMeaning := transferHasMeaning_of_ne (by rw [h]; decide)
    rw [takeTransfer_of_hasMeaning target hmeaning, transfer, transferLoops_of_transferWins h]
  case decrements =>
    have hmeaning : s.transferHasMeaning := transferHasMeaning_of_ne (by rw [h]; decide)
    refine ⟨_, takeTransfer_of_hasMeaning target hmeaning, rfl, fun k => ?_⟩
    rw [transfer_loop, transferLoops_loop, h]
    simp only [true_and]
  case transfers =>
    rcases hi with ⟨off, rfl⟩ | ⟨off, rfl⟩ | ⟨p, rfl⟩ | ⟨p, rfl⟩ | ⟨off, rfl⟩ | ⟨p, rfl⟩ | ⟨p, rfl⟩ | rfl |
      ⟨hcc, bp, off, rfl⟩ | ⟨hcc, bp, off, rfl⟩
    · exact takeTransfer_refused _ h hend
    · exact takeTransfer_refused _ h hend
    · exact takeTransfer_refused _ h hend
    · exact takeTransfer_refused _ h hend
    · exact callTo_refused _ _ h hend
    · exact callTo_refused _ _ h hend
    · exact callTo_refused _ _ h hend
    · exact takeTransfer_refused _ h hend
    · exact branch_refused hcc off h hend
    · exact branch_refused (taken := !s.cc) (by rw [hcc]; rfl) off h hend
  case rti =>
    have hown : interruptLevel n = true := by simpa [interruptLevel] using hn
    exact hs.returnInstr_refused hown _ _ h hend
  case rtx => exact hs.returnInstr_refused rfl _ _ h hend
  case rtn => exact hs.returnInstr_refused rfl _ _ h hend
  case rte => exact hs.returnInstr_refused rfl _ _ h hend

/-! ## LSETUP -/

/-- A field with a zero bit after it is twice the field. -/
theorem append_zero_setWidth {n : Nat} (f : BitVec n) : (f ++ 0#1).setWidth 32 = BitVec.ofNat 32 (2 * f.toNat) := by
  apply BitVec.eq_of_toNat_eq
  simp [BitVec.toNat_append, Nat.shiftLeft_eq, Nat.mul_comm]

/-- LSETUP in the terms of the claim: the offsets as numbers. -/
theorem loopSetup_eq (k : LoopIdx) (soff : BitVec 4) (p : PReg) (eoff : BitVec 10) (s : State) :
    loopSetup k soff p eoff s = s.setLoop k
      ⟨s.preg p, s.pc + BitVec.ofNat 32 (2 * soff.toNat), s.pc + BitVec.ofNat 32 (2 * eoff.toNat)⟩ := by
  rw [loopSetup, loopStart, loopEnd, append_zero_setWidth, append_zero_setWidth]

/-- The end that LSETUP loads is another instruction than itself. -/
theorem ne_add_offset (a : Word) {eoff : BitVec 10} (h : 2 ≤ eoff.toNat) : a ≠ a + BitVec.ofNat 32 (2 * eoff.toNat) := by
  bv_omega

/-- `NextPC` does not depend on the registers of a unit that takes no part. -/
theorem advance_congr_of_inert (len : Word) {k : LoopIdx} {s u : State} (hpc : u.pc = s.pc)
    (hothers : ∀ j, j ≠ k → u.loop j = s.loop j) (hs : s.pc ≠ (s.loop k).lb ∨ (s.loop k).lc = 0)
    (hu : u.pc ≠ (u.loop k).lb ∨ (u.loop k).lc = 0) :
    (advance len u).pc = (advance len s).pc ∧ ∀ j, j ≠ k → (advance len u).loop j = (advance len s).loop j := by
  have hs' := loopsBack_of_inert hs
  have hu' := loopsBack_of_inert hu
  cases k with
  | l0 =>
    have hloop1 : u.loop1 = s.loop1 := hothers .l1 (by decide)
    refine ⟨by simp [advance_pc, hs', hu', hpc, hloop1, loopsBack_congr (k := .l1) hpc hloop1], fun j hj => ?_⟩
    cases j with
    | l0 => contradiction
    | l1 => simp [State.loop, advance_loop1, hpc, hloop1]
  | l1 =>
    have hloop0 : u.loop0 = s.loop0 := hothers .l0 (by decide)
    refine ⟨by simp [advance_pc, hs', hu', hpc, hloop0, loopsBack_congr (k := .l0) hpc hloop0], fun j hj => ?_⟩
    cases j with
    | l0 => simp [State.loop, advance_loop0, hs', hu', hpc, hloop0]
    | l1 => contradiction

theorem goesOn.loop_eq {len : Word} {u t : State} (h : goesOn len u t) (j : LoopIdx) : t.loop j = (advance len u).loop j := by
  obtain ⟨-, hloop0, hloop1⟩ := h
  cases j <;> assumption

/-- Where unit `k` takes no part before or after the write of its registers, both readings of log 38 go on to the next address of
the state written. -/
theorem goesOn_advanceWritten (len : Word) {k : LoopIdx} {s : State} {v : LoopUnit}
    (hclash : loopClash k s (s.setLoop k v) = false) (hend : s.pc ≠ v.lb) :
    goesOn len (s.setLoop k v) (advanceWritten len k s (s.setLoop k v)) := by
  rcases advanceWritten_cases len k s (s.setLoop k v) with ⟨-, -, heq⟩ | ⟨-, -, heq⟩ | ⟨hc, -⟩
  case inr.inr => rw [hclash] at hc; cases hc
  case inr.inl => rw [heq]; exact ⟨rfl, rfl, rfl⟩
  case inl =>
    have hpc : (s.setLoop k v).pc = s.pc := by simp
    have hothers (j : LoopIdx) (hj : j ≠ k) : (s.setLoop k v).loop j = s.loop j := by simp [hj]
    have hold := loopClash_false hclash
    have hnew : (s.setLoop k v).pc ≠ ((s.setLoop k v).loop k).lb ∨ ((s.setLoop k v).loop k).lc = 0 :=
      .inl (by simpa using hend)
    obtain ⟨hseenPc, hseenOwn, hseenOthers⟩ := advanceSeeing_inert len k s (s.setLoop k v) hpc hothers hold
    obtain ⟨hnextPc, hnextOthers⟩ := advance_congr_of_inert len hpc hothers hold hnew
    have hloop (j : LoopIdx) :
        (advanceSeeing len k (s.loop k) (s.setLoop k v)).loop j = (advance len (s.setLoop k v)).loop j := by
      by_cases hj : j = k
      · rw [hj, hseenOwn, advance_inert len k _ hnew]
      · rw [hseenOthers j hj, hnextOthers j hj]
    rw [heq]
    exact ⟨hseenPc.trans hnextPc.symm, hloop .l0, hloop .l1⟩

theorem sameButFlow_advanceWritten (len : Word) (k : LoopIdx) (s : State) (v : LoopUnit) :
    sameButFlow s (advanceWritten len k s (s.setLoop k v)) := by
  refine ⟨?core, by simp, by simp, fun a => State.dataByte_congr (by simp) (by simp) a⟩
  case core => simp [sameCore, keepsGeneral, keepsReturns, keepsEvents, keepsWorld]

/-- An LSETUP that 43_loops.md R262 and R266 do not refuse loads the unit and goes on. -/
theorem exec_lsetup_eq {k : LoopIdx} {soff : BitVec 4} {p : PReg} {eoff : BitVec 10} {s : State} (hsoff : 2 ≤ soff.toNat)
    (heoff : soff.toNat ≤ eoff.toNat) (hwrite : loopWriteRefused k s (loopSetup k soff p eoff s) = false) :
    exec (.lsetup k soff p eoff) s = .next (advanceWritten 4 k s (loopSetup k soff p eoff s)) := by
  have hoff : lsetupAdmitted soff eoff = true := by simp [lsetupAdmitted, hsoff, heoff]
  show execLsetup k soff p eoff s = _
  rw [execLsetup, hoff, hwrite]
  rfl

/-- The clash of 43_loops.md R262 for a write of the whole unit. -/
theorem loopClash_setLoop_eq_false_iff {k : LoopIdx} {s : State} {v : LoopUnit} :
    loopClash k s (s.setLoop k v) = false ↔ (s.pc = (s.loop k).lb → (s.loop k).lc = 0 ∧ v.lc = 0) := by
  simp [loopClash, imp_iff_not_or]

/-- Settles O39: away from the active end the new end is another instruction, so that the unit stands as loaded; at it the
instruction ends as `goesOnOpen` says. -/
theorem lsetupCompletes : Obligations.LsetupCompletes := by
  intro k soff p eoff s hsoff heoff hmeaning lt lb
  have hwrite : loopWriteRefused k s (loopSetup k soff p eoff s) = false := by
    rw [loopSetup_eq, loopWriteRefused, Bool.and_eq_false_imp]
    exact fun hplat => loopClash_setLoop_eq_false_iff.2 (hmeaning (of_decide_eq_true hplat))
  have hopen := goesOnOpen_advanceWritten 4 k s (s.setLoop k ⟨s.preg p, lt, lb⟩)
  refine ⟨_, exec_lsetup_eq hsoff heoff hwrite, ?_⟩
  rw [loopSetup_eq]
  refine ⟨?lt, ?lb, fun hfree => ?free, hopen, sameButFlow_advanceWritten 4 k s _⟩
  case lt =>
    obtain ⟨-, -, hlt, -⟩ := hopen
    simpa using hlt
  case lb =>
    obtain ⟨-, -, -, hlb, -⟩ := hopen
    simpa using hlb
  case free =>
    have hend : s.pc ≠ lb := ne_add_offset s.pc (hsoff.trans heoff)
    have hgoes := goesOn_advanceWritten 4 (v := ⟨s.preg p, lt, lb⟩) (loopClash_setLoop_eq_false_iff.2 hfree) hend
    have hkept := advance_inert 4 k (s.setLoop k ⟨s.preg p, lt, lb⟩) (.inl (by simpa using hend))
    refine ⟨?_, hgoes⟩
    rw [hgoes.loop_eq k, hkept]
    simp

end Sys2Proof.Machine

/-! # The event instructions (44_event_instructions.md) -/

namespace Sys2Proof.Machine

/-! ## Protected instructions that complete -/

/-- Outside User mode a protected instruction does what it says (60_exceptions.md R424). -/
theorem supervisorOnly_of_ne_user {s : State} (h : s.mode ≠ .user) (o : Outcome) : supervisorOnly s o = o := by
  rw [supervisorOnly, if_neg h]

/-- Outside User mode a protected instruction whose writes give `u` and leave pc and the loop units alone makes these writes and
goes on. -/
theorem supervisorOnly_advance_completes {s u : State} (hmode : s.mode ≠ .user) (hpc : u.pc = s.pc)
    (hloop0 : u.loop0 = s.loop0) (hloop1 : u.loop1 = s.loop1) :
    supervisorOnly s (.next (advance 2 u)) = .next (advance 2 u) ∧ sameButFlow u (advance 2 u) ∧ goesOn 2 s (advance 2 u) :=
  ⟨supervisorOnly_of_ne_user hmode _, sameButFlow_advance 2 u, goesOn_advance 2 u s hpc hloop0 hloop1⟩

theorem State.setD_dreg_same (s : State) (d : DReg) (v : Word) : (s.setD d v).dreg d = v :=
  s.setGreg_greg (.d d) v

/-- CLI reads IMASK before it clears bits 15..5 (44_event_instructions.md R290). -/
theorem exec_cli (d : DReg) (s : State) : exec (.cli d) s =
    supervisorOnly s (.next (advance 2 ((s.setD d (s.imask.setWidth 32)).setImask 0x001F#16))) := by
  have hclear (u : State) : u.writeImask 0 = u.setImask 0x001F#16 := u.writeImask_eq 0
  rw [← hclear]
  rfl

/-- STI is a write of IMASK, whose bits 4..0 stay 1 (44_event_instructions.md R292). -/
theorem exec_sti (d : DReg) (s : State) : exec (.sti d) s =
    supervisorOnly s (.next (advance 2 (s.setImask (((s.dreg d).setWidth 16 &&& 0xFFE0#16) ||| 0x001F#16)))) := by
  rw [← State.writeImask_eq]
  rfl

/-- Settles O56: the writes are those of `exec_cli` and `exec_sti`, and no loop unit reads them. -/
theorem cliAndStiComplete : Obligations.CliAndStiComplete := by
  intro d s hmode
  rw [exec_cli, exec_sti]
  refine ⟨?cli, ?sti⟩
  case cli =>
    obtain ⟨hnext, hsame, hgoes⟩ := supervisorOnly_advance_completes hmode
      (u := (s.setD d (s.imask.setWidth 32)).setImask 0x001F#16) rfl rfl rfl
    refine ⟨_, hnext, ?dreg, advance_imask 2 _, hsame, hgoes⟩
    case dreg =>
      rw [State.dreg, advance_d]
      exact s.setD_dreg_same d _
  case sti =>
    obtain ⟨hnext, hsame, hgoes⟩ := supervisorOnly_advance_completes hmode
      (u := s.setImask (((s.dreg d).setWidth 16 &&& 0xFFE0#16) ||| 0x001F#16)) rfl rfl rfl
    exact ⟨_, hnext, advance_imask 2 _, hsame, hgoes⟩

/-- Settles O58: the one write is the wait state. -/
theorem idleCompletes : Obligations.IdleCompletes := by
  intro s hmode
  obtain ⟨hnext, hsame, hgoes⟩ := supervisorOnly_advance_completes (u := s.setIdle true) hmode rfl rfl rfl
  exact ⟨_, hnext, advance_idle 2 _, hsame, hgoes⟩

/-! ## RAISE -/

theorem raiseRefused_iff {n : BitVec 4} : raiseRefused n = true ↔ n = 0 ∨ n = 3 ∨ n = 4 := by
  simp [raiseRefused, or_assoc]

/-- HWERRCAUSE as RAISE 5 records it: bits 18..14 of SEQSTAT (10_state.md R31). -/
theorem setHwErrCause_raise (s : State) :
    s.setHwErrCause 0b11000#5 = s.setSeqstat ((s.seqstat &&& 0xFFF83FFF#32) ||| 0x00060000#32) := by
  have hvalue : s.seqstat.extractLsb' 19 13 ++ 0b11000#5 ++ s.seqstat.extractLsb' 0 14 =
      (s.seqstat &&& 0xFFF83FFF#32) ||| 0x00060000#32 := by
    apply BitVec.eq_of_getLsbD_eq
    intro i hi
    simp only [BitVec.getLsbD_append, BitVec.getLsbD_extractLsb', BitVec.getLsbD_or, BitVec.getLsbD_and]
    interval_cases i <;> simp
  rw [State.setHwErrCause, hvalue]

/-- What RAISE records in SEQSTAT (44_event_instructions.md R283). -/
theorem raiseCause_eq (n : BitVec 4) (s : State) : raiseCause n s =
    s.setSeqstat (if n = 5 then (s.seqstat &&& 0xFFF83FFF#32) ||| 0x00060000#32 else s.seqstat) := by
  unfold raiseCause
  split
  · exact setHwErrCause_raise s
  · rfl

/-- RAISE outside User mode: the two refusals, and else the writes of ILAT and SEQSTAT (44_event_instructions.md R280 to
R283). -/
theorem exec_raise (n : BitVec 4) {s : State} (hmode : s.mode ≠ .user) : exec (.raise n) s =
    if n = 0 ∨ n = 3 ∨ n = 4 then .refused .raiseOperand
    else if n = 1 ∧ s.plat.softReset = .refuse then .refused .softReset
    else .next (advance 2 ((s.setIlat (s.ilat ||| (1#16 <<< n.toNat))).setSeqstat
      (if n = 5 then (s.seqstat &&& 0xFFF83FFF#32) ||| 0x00060000#32 else s.seqstat))) := by
  show execRaise n s = _
  rw [execRaise, supervisorOnly_of_ne_user hmode, raiseCause_eq]
  simp only [raiseRefused_iff]
  rfl

/-- Settles O57: the refusals come before the writes, which no loop unit reads. -/
theorem raiseCompletes : Obligations.RaiseCompletes := by
  intro n s hmode
  rw [exec_raise n hmode]
  by_cases hoperand : n = 0 ∨ n = 3 ∨ n = 4
  · simp only [if_pos hoperand]
  by_cases hreset : n = 1 ∧ s.plat.softReset = .refuse
  · simp only [if_neg hoperand, if_pos hreset]
  · simp only [if_neg hoperand, if_neg hreset]
    exact ⟨_, rfl, advance_ilat 2 _, sameButFlow_advance 2 _, goesOn_advance 2 _ s rfl rfl rfl⟩

/-! ## EXCPT -/

/-- A service exception outside the handlers is the entry of event 3 from the state after the instruction, with its next address
(60_exceptions.md R382, R392). -/
theorem takeException_of_service {x : Exc} {s : State} (hout : s.inHandler = false) (hserv : x.service = true) (done : State) :
    takeException x s done = takeEvent 3 done.pc (done.setExcause x.code) := by
  simp only [takeException, hout, hserv, Bool.false_eq_true, if_false, if_true]

/-- EXCAUSE of EXCPT is its field, zero-extended (44_event_instructions.md R286). -/
theorem append_forced_code (hi : BitVec 26) (m : BitVec 4) : hi ++ (Exc.forced m).code = hi ++ 0#2 ++ m := by
  have hcode : (Exc.forced m).code = 0#2 ++ m := BitVec.setWidth_eq_append (by decide)
  rw [hcode, BitVec.append_assoc]
  rfl

/-- EXCPT outside the handlers: the loop units act, and then event 3 is entered (44_event_instructions.md R286; 43_loops.md
R260). -/
theorem exec_excpt (m : BitVec 4) {s : State} (hout : s.inHandler = false) : exec (.excpt m) s =
    .next (takeEvent 3 (advance 2 s).pc ((advance 2 s).setExcause (Exc.forced m).code)) :=
  congrArg Host.Outcome.next (takeException_of_service hout (x := .forced m) rfl (advance 2 s))

/-- Settles O20: of the fields it names, going on writes those of the flow, the exception EXCAUSE, and the entry of event 3 the
others. -/
theorem excptCompletes : Obligations.ExcptCompletes := by
  intro m s hout
  have hmode : (takeEvent 3 (advance 2 s).pc ((advance 2 s).setExcause (Exc.forced m).code)).mode = .supervisor := by
    apply takeEvent_three_mode
    rw [State.setExcause_ipend, advance_ipend]
    exact State.ipend_zero_of_not_inHandler hout
  refine ⟨_, exec_excpt m hout, ?_⟩
  rw [takeEvent_three] at hmode ⊢
  refine ⟨?pc, ?retx, ?loop0, ?loop1, ?seqstat, ?ipend, ?ilat, ?idle, hmode, ?reti, ?retn, ?sic, ?entry⟩
  case seqstat =>
    show (advance 2 s).seqstat.extractLsb' 6 26 ++ (Exc.forced m).code = _
    rw [append_forced_code, advance_seqstat]
  case entry => simp [keepsAtEntry, keepsGeneral, keepsConfig, keepsMemory, State.dataByte]
  all_goals simp

/-! ## The returns from events -/

/-- A return instruction at its own level clears the bits of IPEND and goes to the return register, if a transfer has a meaning
(44_event_instructions.md R294). -/
theorem State.servicing.returnInstr_completes {s : State} {n : Fin 16} (hs : s.servicing n) (hmeaning : s.transferHasMeaning)
    {own : Fin 16 → Bool} (hown : own n = true) (also : BitVec 16) (target : Word) :
    ∃ t, returnInstr own also target s = .next t ∧ goesTo target s t ∧
      sameButFlow (s.setIpend (s.ipend &&& ~~~((1#16 <<< n.val) ||| also))) t := by
  have hloop (v : BitVec 16) (k : LoopIdx) : (s.setIpend v).loop k = s.loop k := by cases k <;> rfl
  rw [hs.returnInstr_eq hown]
  exact ⟨_, takeTransfer_goesTo target hmeaning (State.setIpend_pc ..) (hloop _) (State.setIpend_plat ..)⟩

/-- Settles O59: each return at a level of its own, whose bit of IPEND it clears. -/
theorem eventReturnsComplete : Obligations.EventReturnsComplete := by
  intro s hmeaning
  refine ⟨fun n hn hs => ?rti, fun hs => ?rtx, fun hs => ?rtn, fun hs => ?rte⟩
  case rti =>
    have hown : interruptLevel n = true := by simpa [interruptLevel] using hn
    exact hs.returnInstr_completes hmeaning hown 0x0010#16 s.reti
  case rtx => exact hs.returnInstr_completes hmeaning rfl 0#16 s.retx
  case rtn => exact hs.returnInstr_completes hmeaning rfl 0#16 s.retn
  case rte => exact hs.returnInstr_completes hmeaning rfl 0#16 s.rete

/-- A return instruction at a level that is not its own is refused (44_event_instructions.md R302). -/
theorem State.servicing.returnInstr_wrong {s : State} {n : Fin 16} (hs : s.servicing n) {own : Fin 16 → Bool}
    (hown : own n = false) (also : BitVec 16) (target : Word) :
    returnInstr own also target s = .refused .wrongReturn := by
  simp [returnInstr, supervisorOnly_of_ne_user hs.mode_ne_user, hs.level_eq, hown]

/-- Settles O60: none of the levels named is the instruction's own. -/
theorem wrongReturnIsRefused : Obligations.WrongReturnIsRefused := by
  intro s n hs
  refine ⟨fun hn => hs.returnInstr_wrong ?rti _ _, fun hn => hs.returnInstr_wrong (decide_eq_false hn) _ _,
    fun hn => hs.returnInstr_wrong (decide_eq_false hn) _ _, fun hn => hs.returnInstr_wrong (decide_eq_false hn) _ _⟩
  case rti => rcases hn with rfl | rfl | rfl <;> rfl

/-! ## Leaving the idle state -/

/-- Acceptance reads neither the wait state nor the count of draws. -/
theorem State.setDraws_pendingEvent (s : State) (v : Nat) : (s.setDraws v).pendingEvent = s.pendingEvent := rfl

theorem State.setIdle_pendingEvent (s : State) (v : Bool) : (s.setIdle v).pendingEvent = s.pendingEvent := rfl

/-- The event check enters the event to take (60_exceptions.md R402). -/
theorem checkEvents_of_some {s : State} {n : Fin 16} (h : s.pendingEvent = some n) :
    checkEvents s = .error (.next (takeEvent n s.pc s)) := by
  rw [checkEvents, h]

theorem checkEvents_of_none {s : State} (h : s.pendingEvent = none) : checkEvents s = .ok s := by
  rw [checkEvents, h]

/-- A core that an asserted line or an event wakes goes to the event check (44_event_instructions.md R312). -/
theorem checkIdle_of_wakes {s : State} (hidle : s.idle = true) (hwakes : s.sic.wakes = true ∨ s.pendingEvent.isSome = true)
    (wake : Bool) : checkIdle wake s = checkEvents (s.setIdle false) := by
  rw [checkIdle, if_pos hidle, if_pos (Bool.or_eq_true_iff.2 hwakes)]

/-- A core that nothing wakes for certain stays, or, with a latched request, follows the draw (44_event_instructions.md R312). -/
theorem checkIdle_of_quiet {s : State} (hidle : s.idle = true) (hnone : s.pendingEvent = none) (hquiet : s.sic.wakes = false)
    (wake : Bool) : checkIdle wake s =
      if s.ilat &&& 0xFFE0#16 = 0 then .error (.next s)
      else if wake then .ok ((s.setIdle false).setDraws (s.draws + 1))
      else .error (.next (s.setDraws (s.draws + 1))) := by
  have hsleeps : (s.sic.wakes || s.pendingEvent.isSome) = false := by rw [hquiet, hnone]; rfl
  have hawake : ((s.setIdle false).setDraws (s.draws + 1)).pendingEvent = none := by
    rw [State.setDraws_pendingEvent, State.setIdle_pendingEvent, hnone]
  rw [checkIdle, if_pos hidle, hsleeps, if_neg Bool.false_ne_true, checkEvents_of_none hawake]
  by_cases hilat : s.ilat &&& 0xFFE0#16 = 0
  · simp [State.anyLatched, hilat]
  · rw [if_neg hilat, if_pos (show s.anyLatched = true from decide_eq_true hilat)]

/-- Settles O30: an event or a line leads to the event check, and else the latched requests decide. -/
theorem idleWakes : Obligations.IdleWakes := by
  intro wake s hidle
  refine ⟨fun n hsome => ?event, fun hnone hwakes => ?line, fun hnone hquiet hilat => ?stays, fun hnone hquiet hilat => ?draw⟩
  case event =>
    rw [checkIdle_of_wakes hidle (.inr (by rw [hsome]; rfl)), checkEvents_of_some (s.setIdle_pendingEvent false ▸ hsome)]
    rfl
  case line =>
    rw [checkIdle_of_wakes hidle (.inl hwakes), checkEvents_of_none (s.setIdle_pendingEvent false ▸ hnone)]
  case stays => rw [checkIdle_of_quiet hidle hnone hquiet, if_pos hilat]
  case draw => rw [checkIdle_of_quiet hidle hnone hquiet, if_neg hilat]

end Sys2Proof.Machine


/-! # The mode, and exceptions taken (60_exceptions.md R382, R392, R394, R420, R424) -/

namespace Sys2Proof.Machine

/-! ## The mode -/

/-- User mode by the bits of IPEND (60_exceptions.md R420). -/
theorem State.mode_user_iff_bits (s : State) :
    s.mode = .user ↔ ∀ n : Fin 16, n ≠ 4 → s.ipend.getLsbD n.val = false := by
  have hmask : ∀ n : Fin 16, n ≠ 4 → (0xFFEF#16).getLsbD n.val = true := by decide
  constructor
  · intro huser n hn
    calc s.ipend.getLsbD n.val = (s.ipend &&& 0xFFEF#16).getLsbD n.val := by
          rw [BitVec.getLsbD_and, hmask n hn, Bool.and_true]
      _ = false := by rw [State.user_low huser, BitVec.getLsbD_zero]
  · intro hclear
    refine (s.mode_user_iff).2 ⟨hclear 0 (by decide), ?_⟩
    apply BitVec.eq_of_getLsbD_eq
    intro i hi
    rw [BitVec.getLsbD_and, BitVec.getLsbD_zero]
    by_cases h4 : i = 4
    · subst h4; exact Bool.and_false _
    · rw [hclear ⟨i, hi⟩ fun h => h4 (congrArg Fin.val h), Bool.false_and]

theorem State.mode_emulation_iff (s : State) : s.mode = .emulation ↔ s.ipend.getLsbD 0 = true := by
  unfold State.mode
  split
  · next h => exact ⟨fun _ => h, fun _ => rfl⟩
  · next h => split <;> exact ⟨nofun, fun hbit => absurd hbit h⟩

/-- Supervisor mode is neither Emulation nor User mode (60_exceptions.md R420). -/
theorem State.mode_supervisor_iff (s : State) :
    s.mode = .supervisor ↔ s.ipend.getLsbD 0 = false ∧ s.mode ≠ .user := by
  rw [← Bool.not_eq_true, ← s.mode_emulation_iff]
  cases s.mode <;> simp

/-- Settles O9: Supervisor mode is what Emulation and User mode leave. -/
theorem modeOfIpend : Obligations.ModeOfIpend := by
  intro s
  refine ⟨s.mode_emulation_iff, ?supervisor, s.mode_user_iff_bits⟩
  case supervisor =>
    rw [s.mode_supervisor_iff, ne_eq, s.mode_user_iff_bits]
    simp

/-- An active event excludes User mode (60_exceptions.md R420). -/
theorem State.mode_ne_user_of_bit {s : State} {n : Fin 16} (hn : n ≠ 4) (h : s.ipend.getLsbD n.val = true) :
    s.mode ≠ .user := by
  intro huser
  have hclear := s.mode_user_iff_bits.1 huser n hn
  exact absurd (h.symm.trans hclear) (by decide)

/-- Settles O12: the effects on IPEND other than a return's keep the mode or set IPEND[3]. -/
theorem onlyReturnsEnterUserMode : Obligations.OnlyReturnsEnterUserMode := by
  intro i s t hmode h huser
  have absent {P : Prop} (hkept : t.mode = s.mode) : P := absurd (hkept.symm.trans huser) hmode
  cases exec_effect h with
  | returns hi _ => exact hi
  | excepts _ hd hevt =>
    obtain ⟨-, -, hsame | ⟨hentry, -⟩⟩ := takeException_events hd hevt
    · exact absent (State.mode_congr hsame)
    · refine absurd huser (State.mode_ne_user_of_bit (n := 3) (by decide) ?_)
      rw [hentry, BitVec.getLsbD_or]
      exact Bool.or_true _
  | pushReti hu h =>
    have hipend := (State.ipend_of_watched h).trans (congrArg (· &&& 0xFFEF#16) hu.ipend)
    exact absent ((State.mode_congr hipend).trans s.mode_clear4)
  | popReti h => exact absent ((State.mode_congr (State.ipend_of_watched h)).trans s.mode_set4)
  | keeps h | writesSyscfg _ _ h | cli h | sti h => exact absent (State.mode_congr ((State.ipend_of_watched h).trans rfl))
  | raise _ h => exact absent (State.mode_congr ((State.ipend_of_watched h).trans (raiseCause_ipend _ _)))
  | push h | pushMultiple h => exact absent (State.mode_congr h.ipend)

/-! ## Exceptions -/

/-- Settles O18: outside the handlers an error exception is the entry of event 3, and `done` is not read. -/
theorem errorExceptionIsTaken : Obligations.ErrorExceptionIsTaken :=
  fun _ _ done hout herr => tookError_takeException hout herr done

/-- A double fault has the effects `tookDoubleFault` names and no other (60_exceptions.md R394). -/
theorem tookDoubleFault_takeDoubleFault (s : State) : tookDoubleFault s (takeDoubleFault s) := by
  refine ⟨rfl, rfl, rfl, rfl, rfl, rfl, rfl, rfl, ?loops, ?general, ?config, rfl, ?events, rfl, fun _ => rfl⟩
  case loops => exact ⟨rfl, rfl⟩
  case general => exact ⟨rfl, rfl, rfl, rfl, rfl⟩
  case config => exact ⟨rfl, rfl, rfl⟩
  case events => exact ⟨rfl, rfl, rfl, rfl, rfl⟩

theorem takeException_of_inHandler {s : State} (h : s.inHandler = true) (x : Exc) (done : State) :
    takeException x s done = takeDoubleFault s :=
  if_pos h

/-- A step that ends before the fetch ends as `prepare` says (00_scope.md R11). -/
theorem step_of_prepare_error {s : State} {o : Outcome} (h : prepare s = .error o) : step s = o := by
  rw [step, h]

/-- After a double fault nothing but RESET is a step (60_exceptions.md R394; 70_reset_and_hazards.md R442). -/
theorem prepare_of_doubleFault {s : State} (hreset : s.nextInput.reset = false) (hfault : s.doubleFault = true) :
    prepare s = .error (.fault .doubleFaultState) := by
  simp only [prepare, hreset, hfault, Bool.false_eq_true, if_false, if_true]

/-- Settles O19: the double fault, and the check for its signal at the start of a step. -/
theorem doubleFaultIsFinal : Obligations.DoubleFaultIsFinal := by
  constructor
  · intro x s done h
    rw [takeException_of_inHandler h]
    exact tookDoubleFault_takeDoubleFault s
  · exact fun s hfault hreset => step_of_prepare_error (prepare_of_doubleFault hreset hfault)

end Sys2Proof.Machine

/-! # The entry of an event, the event to take, and the return from it (60_exceptions.md R396, R400, R402, R432) -/

namespace Sys2Proof.Machine

/-! ## Event entry, bit by bit -/

theorem getLsbD_one_shiftLeft (w n b : Nat) : (1#w <<< n).getLsbD b = decide (b = n ∧ n < w) := by
  rw [← BitVec.twoPow_eq, BitVec.getLsbD_twoPow]
  grind

theorem getLsbD_eventBit (n b : Fin 16) : (1#16 <<< n.val).getLsbD b.val = decide (b = n) := by
  rw [getLsbD_one_shiftLeft]
  simp [Fin.ext_iff]

theorem entryBits_getLsbD (n b : Fin 16) :
    (entryBits n).getLsbD b.val = (decide (b = n) || (decide (b = 4) && decide (5 ≤ n.val))) := by
  have hfour : (0x0010#16).getLsbD b.val = decide (b = 4) := by revert b; decide
  unfold entryBits
  split
  · next h => rw [BitVec.getLsbD_or, getLsbD_eventBit, hfour, decide_eq_true h, Bool.and_true]
  · next h => rw [getLsbD_eventBit, decide_eq_false h, Bool.and_false, Bool.or_false]

theorem takeEvent_ipend_getLsbD (n : Fin 16) (ret : Word) (s : State) (b : Fin 16) :
    (takeEvent n ret s).ipend.getLsbD b.val =
      (s.ipend.getLsbD b.val || decide (b = n) || (decide (b = 4) && decide (5 ≤ n.val))) := by
  rw [takeEvent_ipend, BitVec.getLsbD_or, entryBits_getLsbD, Bool.or_assoc]

theorem takeEvent_ilat_getLsbD (n : Fin 16) (ret : Word) (s : State) (b : Fin 16) :
    (takeEvent n ret s).ilat.getLsbD b.val = (s.ilat.getLsbD b.val && decide (b ≠ n)) := by
  rw [takeEvent_ilat, BitVec.getLsbD_and, BitVec.getLsbD_not, getLsbD_eventBit, decide_eq_true b.isLt, Bool.true_and,
    decide_not]

theorem takeEvent_ipend_own (n : Fin 16) (ret : Word) (s : State) : (takeEvent n ret s).ipend.getLsbD n.val = true := by
  rw [takeEvent_ipend_getLsbD, decide_eq_true rfl, Bool.or_true, Bool.true_or]

theorem takeEvent_ilat_own (n : Fin 16) (ret : Word) (s : State) : (takeEvent n ret s).ilat.getLsbD n.val = false := by
  rw [takeEvent_ilat_getLsbD, decide_eq_false (not_not_intro rfl), Bool.and_false]

/-- The acknowledge of an event writes the pulses outstanding alone (60_exceptions.md R376). -/
theorem Sic.acknowledge_eq (c : Sic) (n : Fin 16) : c.acknowledge n = { c with sent := (c.acknowledge n).sent } := by
  unfold Sic.acknowledge
  split <;> rfl

theorem Sic.acknowledge_sent_getLsbD (c : Sic) (n : Fin 16) (k : Fin 9) :
    (c.acknowledge n).sent.getLsbD k.val = (c.sent.getLsbD k.val && decide (n.val ≠ 7 + k.val)) := by
  unfold Sic.acknowledge
  split
  · next h =>
    have hown : (~~~(1#9 <<< (n.val - 7))).getLsbD k.val = decide (n.val ≠ 7 + k.val) := by
      simp only [BitVec.getLsbD_not, getLsbD_one_shiftLeft]
      grind
    show (c.sent &&& ~~~(1#9 <<< (n.val - 7))).getLsbD k.val = _
    rw [BitVec.getLsbD_and, hown]
  · next h =>
    have hother : n.val ≠ 7 + k.val := by omega
    simp [hother]

/-- The handler of an event other than emulation runs in Supervisor mode (60_exceptions.md R420). -/
theorem takeEvent_mode {n : Fin 16} {s : State} (h0 : n ≠ 0) (h4 : n ≠ 4) (h : s.ipend.getLsbD 0 = false) (ret : Word) :
    (takeEvent n ret s).mode = .supervisor := by
  refine (State.mode_supervisor_iff _).2 ⟨?_, State.mode_ne_user_of_bit h4 (takeEvent_ipend_own n ret s)⟩
  have hbit := takeEvent_ipend_getLsbD n ret s 0
  rw [show s.ipend.getLsbD (0 : Fin 16).val = false from h, decide_eq_false h0.symm] at hbit
  exact hbit

theorem takeEvent_keepsLoops (n : Fin 16) (ret : Word) (s : State) : keepsLoops s (takeEvent n ret s) := by
  simp [keepsLoops]

theorem takeEvent_keepsAtEntry (n : Fin 16) (ret : Word) (s : State) : keepsAtEntry s (takeEvent n ret s) := by
  simp [keepsAtEntry, keepsGeneral, keepsConfig, keepsMemory, State.dataByte]

/-- Settles O24: entry writes its return register, its bits of ILAT, IPEND and the SIC, the wait state and pc. -/
theorem eventEntry : Obligations.EventEntry := by
  intro n ret s hn
  obtain ⟨hretn, hretx, hreti⟩ := takeEvent_returns n ret s
  have h0 : n ≠ 0 := by rintro rfl; simp at hn
  have h3 : n ≠ 3 := by rintro rfl; simp at hn
  have h4 : n ≠ 4 := by rintro rfl; simp at hn
  refine ⟨rfl, hretn, ?reti, hretx.trans (if_neg h3), takeEvent_ilat_getLsbD n ret s, takeEvent_ipend_getLsbD n ret s,
    s.sic.acknowledge_eq n, s.sic.acknowledge_sent_getLsbD n, rfl, by simp, fun hemu => ?mode,
    takeEvent_keepsLoops n ret s, takeEvent_keepsAtEntry n ret s⟩
  case reti =>
    rw [hreti]
    rcases hn with rfl | h5
    · rfl
    · have h2 : n ≠ 2 := by rintro rfl; simp at h5
      rw [if_pos h5, if_neg h2]
  case mode =>
    have hmode := takeEvent_mode h0 h4 hemu ret
    exact ⟨hmode, by simp [State.sp, hmode]⟩

/-! ## The event to take -/

/-- The search through the levels finds the least one of the property (60_exceptions.md R322). -/
theorem find?_eventLevels_eq_some_iff {p : Fin 16 → Bool} {n : Fin 16} :
    eventLevels.find? p = some n ↔ n ≠ 4 ∧ p n = true ∧ ∀ m : Fin 16, m < n → m ≠ 4 → p m = false := by
  have hsorted := eventLevels_sorted
  constructor
  · intro h
    obtain ⟨hp, before, after, hsplit, hbefore⟩ := List.find?_eq_some_iff_append.1 h
    rw [hsplit, List.pairwise_append] at hsorted
    obtain ⟨-, hafter, -⟩ := hsorted
    have hmem : n ∈ eventLevels := hsplit ▸ List.mem_append_right _ List.mem_cons_self
    refine ⟨(mem_eventLevels n).1 hmem, hp, fun m hm hm4 => ?_⟩
    have hm : m ∈ before := by
      have hmem : m ∈ before ++ n :: after := hsplit ▸ (mem_eventLevels m).2 hm4
      rcases List.mem_append.1 hmem with hin | hin
      · exact hin
      · rcases List.mem_cons.1 hin with rfl | hin
        · exact absurd hm (lt_irrefl m)
        · exact absurd hm (lt_asymm (List.rel_of_pairwise_cons hafter hin))
    simpa using hbefore m hm
  · rintro ⟨h4, hp, hlower⟩
    obtain ⟨before, after, hsplit⟩ := List.append_of_mem ((mem_eventLevels n).2 h4)
    rw [hsplit, List.pairwise_append] at hsorted
    obtain ⟨-, -, hlt⟩ := hsorted
    refine List.find?_eq_some_iff_append.2 ⟨hp, before, after, hsplit, fun m hm => ?_⟩
    have hmem : m ∈ eventLevels := hsplit ▸ List.mem_append_left _ hm
    rw [hlower m (hlt m hm n List.mem_cons_self) ((mem_eventLevels m).1 hmem), Bool.not_false]

/-- The level is the event being serviced (10_state.md R42; 44_event_instructions.md R294). -/
theorem State.level_eq_some_iff (s : State) (n : Fin 16) : s.level = some n ↔ s.servicing n :=
  find?_eventLevels_eq_some_iff

/-- An event outranks the one being serviced if no event of its number or a smaller one is active (60_exceptions.md R396). -/
theorem State.outranks_iff (s : State) (n : Fin 16) :
    s.outranks n = true ↔ ∀ c : Fin 16, c ≠ 4 → c ≤ n → s.ipend.getLsbD c.val = false := by
  unfold State.outranks
  cases hlevel : s.level with
  | none =>
    have hclear := List.find?_eq_none.1 hlevel
    simpa using fun c h4 _ => by simpa using hclear c ((mem_eventLevels c).2 h4)
  | some c =>
    obtain ⟨h4, hbit, hlower⟩ := (s.level_eq_some_iff c).1 hlevel
    rw [decide_eq_true_eq]
    constructor
    · exact fun hlt m hm4 hm => hlower m (lt_of_le_of_lt hm hlt) hm4
    · intro hclear
      by_contra hge
      exact absurd (hbit.symm.trans (hclear c h4 (not_lt.1 hge))) (by decide)

/-- An event is takeable if it is latched, outranks the one being serviced, and is the NMI or an interrupt that is unmasked and
not blocked by IPEND[4] (60_exceptions.md R396). -/
theorem State.takeable_iff (s : State) (n : Fin 16) :
    s.takeable n = true ↔ s.ilat.getLsbD n.val = true ∧ s.outranks n = true ∧
      (n = 2 ∨ (5 ≤ n.val ∧ s.imask.getLsbD n.val = true ∧ s.ipend.getLsbD 4 = false)) := by
  unfold State.takeable
  split
  · next h => subst h; simp
  · next h =>
    simp only [h, false_or, Bool.and_eq_true, decide_eq_true_eq, Bool.not_eq_true']
    tauto

/-- Event 4 is none (60_exceptions.md R322). -/
theorem State.not_takeable_four (s : State) : s.takeable 4 = false := by
  simp [State.takeable]

theorem State.pendingEvent_eq_some_iff (s : State) (n : Fin 16) :
    s.pendingEvent = some n ↔ s.takeable n = true ∧ ∀ m : Fin 16, m < n → ¬ s.takeable m = true := by
  rw [State.pendingEvent, find?_eventLevels_eq_some_iff]
  constructor
  · rintro ⟨-, htake, hlower⟩
    refine ⟨htake, fun m hm => ?_⟩
    by_cases h4 : m = 4
    · simp [h4, s.not_takeable_four]
    · simp [hlower m hm h4]
  · rintro ⟨htake, hlower⟩
    refine ⟨?_, htake, fun m hm _ => by simpa using hlower m hm⟩
    rintro rfl
    exact absurd htake (by simp [s.not_takeable_four])

/-- Settles O25: the search finds the least takeable event. -/
theorem acceptanceRule : Obligations.AcceptanceRule := by
  intro s n
  simp only [s.pendingEvent_eq_some_iff, s.takeable_iff, s.outranks_iff]

/-! ## The step that takes an event -/

/-- Entry ends the wait state, whatever it was (60_exceptions.md R400). -/
theorem takeEvent_setIdle (n : Fin 16) (ret : Word) (s : State) (v : Bool) :
    takeEvent n ret (s.setIdle v) = takeEvent n ret s := by
  unfold takeEvent State.saveReturn
  split_ifs <;> rfl

/-- An event to take is entered whether the core is idle or not (60_exceptions.md R402; 44_event_instructions.md R312). -/
theorem checkIdle_of_event {s : State} {n : Fin 16} (h : s.pendingEvent = some n) (wake : Bool) :
    checkIdle wake s = .error (.next (takeEvent n s.pc s)) := by
  cases hidle : s.idle with
  | true =>
    rw [checkIdle_of_wakes hidle (.inr (by rw [h]; rfl)), checkEvents_of_some (s.setIdle_pendingEvent false ▸ h),
      takeEvent_setIdle]
    rfl
  | false =>
    rw [checkIdle, hidle, if_neg Bool.false_ne_true]
    exact checkEvents_of_some h

/-- Settles O26: the step is the entry of the event from the state with the inputs latched, which differs from the one before in
none of the fields named. -/
theorem stepEntersEvent : Obligations.StepEntersEvent := by
  intro s n
  dsimp only
  generalize hu : latchInputs s.nextInput (s.setEnv s.env.tail) = u
  intro hreset hfault hrequest hfield hemu hevent
  obtain ⟨htake, -⟩ := (u.pendingEvent_eq_some_iff n).1 hevent
  obtain ⟨-, -, hkind⟩ := (u.takeable_iff n).1 htake
  obtain ⟨-, hretn, hreti, -⟩ := eventEntry n u.pc u (hkind.imp_right And.left)
  have hstep : step s = .next (takeEvent n u.pc u) := by
    apply step_of_prepare_error
    rw [prepare_eq_afterLatch hreset hfault hrequest hfield, hu, afterLatch, if_neg (by simp [hemu])]
    exact checkIdle_of_event hevent _
  have hupc : u.pc = s.pc := by simp [← hu]
  refine ⟨_, hstep, ?pc, ?ret, takeEvent_ipend_own n u.pc u, takeEvent_ilat_own n u.pc u, rfl, ?general, ?loops⟩
  case pc => simp [← hu]
  case ret =>
    split
    · next h => rw [hretn, if_pos h, hupc]
    · next h => rw [hreti, if_neg h, hupc]
  case general => simp [keepsGeneral, ← hu]
  case loops => simp [keepsLoops, ← hu]

/-! ## The return from an interrupt right after its entry -/

/-- Clearing bits that were clear before they were set gives the value before. -/
theorem or_and_not_of_and_eq_zero {w : Nat} {x m : BitVec w} (h : x &&& m = 0#w) : (x ||| m) &&& ~~~m = x := by
  apply BitVec.eq_of_getLsbD_eq
  intro i hi
  have hbit := congrArg (·.getLsbD i) h
  simp only [BitVec.getLsbD_and, BitVec.getLsbD_zero] at hbit
  simp only [BitVec.getLsbD_and, BitVec.getLsbD_or, BitVec.getLsbD_not, hi]
  revert hbit
  cases x.getLsbD i <;> cases m.getLsbD i <;> simp

/-- What entry of an interrupt sets in IPEND was clear if the interrupt outranked the event being serviced and was not blocked. -/
theorem ipend_and_entryBits_eq_zero {n : Fin 16} {s : State} (hn : n ≠ 4) (h4 : s.ipend.getLsbD 4 = false)
    (h : s.outranks n = true) : s.ipend &&& entryBits n = 0#16 := by
  have hown := (s.outranks_iff n).1 h n hn le_rfl
  apply BitVec.eq_of_getLsbD_eq
  intro i hi
  have hbits := entryBits_getLsbD n ⟨i, hi⟩
  rw [BitVec.getLsbD_and, BitVec.getLsbD_zero, hbits]
  by_cases hin : (⟨i, hi⟩ : Fin 16) = n
  · subst hin; rw [hown, Bool.false_and]
  by_cases hi4 : (⟨i, hi⟩ : Fin 16) = 4
  · cases hi4; rw [h4, Bool.false_and]
  · simp [hin, hi4]

/-- An event that outranked the one being serviced is serviced after its entry (10_state.md R42; 60_exceptions.md R400). -/
theorem takeEvent_servicing {n : Fin 16} {s : State} (hn : n ≠ 4) (h : s.outranks n = true) (ret : Word) :
    (takeEvent n ret s).servicing n := by
  refine ⟨hn, takeEvent_ipend_own n ret s, fun m hm hm4 => ?_⟩
  rw [takeEvent_ipend_getLsbD, (s.outranks_iff n).1 h m hm4 hm.le, decide_eq_false hm.ne, decide_eq_false hm4]
  rfl

/-- RTI right after the entry of an interrupt restores IPEND and pc, if the vector is at no loop end (60_exceptions.md R432;
44_event_instructions.md R296). -/
theorem exec_rti_takeEvent {n : Fin 16} {s : State} (h5 : 5 ≤ n.val) (h4 : s.ipend.getLsbD 4 = false)
    (hrank : s.outranks n = true) (hend : ∀ k, s.evt.get n ≠ (s.loop k).lb) :
    exec .rti (takeEvent n s.pc s) = .next (((takeEvent n s.pc s).setIpend s.ipend).setPc s.pc) := by
  have hn : n ≠ 4 := by rintro rfl; simp at h5
  have hbits : entryBits n = (1#16 <<< n.val) ||| 0x0010#16 := if_pos h5
  have hipend : (takeEvent n s.pc s).ipend &&& ~~~((1#16 <<< n.val) ||| 0x0010#16) = s.ipend := by
    rw [takeEvent_ipend, hbits]
    exact or_and_not_of_and_eq_zero (hbits ▸ ipend_and_entryBits_eq_zero hn h4 hrank)
  have hreti : (takeEvent n s.pc s).reti = s.pc := ((takeEvent_returns n s.pc s).2.2).trans (if_pos h5)
  have hnoend (k : LoopIdx) : ((takeEvent n s.pc s).setIpend s.ipend).pc =
      (((takeEvent n s.pc s).setIpend s.ipend).loop k).lb → (((takeEvent n s.pc s).setIpend s.ipend).loop k).lc = 0 := by
    intro hpc
    have hloop : (takeEvent n s.pc s).loop k = s.loop k := by cases k <;> simp [State.loop]
    exact absurd (hpc.trans (congrArg LoopUnit.lb hloop)) (hend k)
  have hown : interruptLevel n = true := by simp [interruptLevel, h5]
  show returnInstr interruptLevel 0x0010#16 (takeEvent n s.pc s).reti (takeEvent n s.pc s) = _
  rw [(takeEvent_servicing hn hrank s.pc).returnInstr_eq hown, returnFromEvent, hipend, hreti,
    takeTransfer_of_hasMeaning _ fun _ => hnoend, transfer, transferLoops_of_no_active_end hnoend]

/-- Settles O31: what the entry wrote and the return does not restore is RETI, ILAT, the SIC and the wait state alone. -/
theorem rtiUndoesInterruptEntry : Obligations.RtiUndoesInterruptEntry := by
  intro n s h5 h4 hrank hend
  refine ⟨_, exec_rti_takeEvent h5 h4 ((s.outranks_iff n).2 hrank) hend, rfl, rfl, State.mode_congr rfl, ?loops, ?general,
    by simp, by simp, ?memory⟩
  case loops => simp [keepsLoops]
  case general => simp [keepsGeneral]
  case memory => simp [keepsMemory, State.dataByte]

end Sys2Proof.Machine

/-! # The inputs of a step, latched (60_exceptions.md R360, R370, R376, R411) -/

namespace Sys2Proof.Machine

/-! ## The core's own inputs -/

theorem latchWhen_ilat_getLsbD (active : Bool) (n : Fin 16) (s : State) (b : Fin 16) :
    (latchWhen active n.val s).ilat.getLsbD b.val = (s.ilat.getLsbD b.val || (active && decide (b = n))) := by
  cases active with
  | false => simp [latchWhen]
  | true =>
    show (s.ilat ||| (1#16 <<< n.val)).getLsbD b.val = _
    rw [BitVec.getLsbD_or, getLsbD_eventBit, Bool.true_and]

/-- A hardware error latches event 5 (60_exceptions.md R411). -/
theorem latchHwError_ilat_getLsbD (h : Option HwError) (s : State) (b : Fin 16) :
    (latchHwError h s).ilat.getLsbD b.val = (s.ilat.getLsbD b.val || (h.isSome && decide (b = 5))) := by
  cases h with
  | none => exact latchWhen_ilat_getLsbD false 5 s b
  | some c => exact latchWhen_ilat_getLsbD true 5 (s.setHwErrCause c.code) b

theorem latchTrst_ilat_getLsbD (active : Bool) (s : State) (b : Fin 16) :
    (latchTrst active s).ilat.getLsbD b.val = (s.ilat.getLsbD b.val && !(active && decide (b = 0))) := by
  have hmask : (0xFFFE#16).getLsbD b.val = !decide (b = 0) := by revert b; decide
  cases active with
  | false => simp [latchTrst]
  | true =>
    show (s.ilat &&& 0xFFFE#16).getLsbD b.val = _
    rw [BitVec.getLsbD_and, hmask, Bool.true_and]

/-- ILAT after the core's inputs, bit by bit (60_exceptions.md R360; log 24). -/
theorem latchCore_ilat_getLsbD (e : EnvInput) (s : State) (b : Fin 16) :
    (latchCore e s).ilat.getLsbD b.val =
      ((s.ilat.getLsbD b.val || (e.hwError.isSome && decide (b = 5)) || (e.timerZero && decide (b = 6)) ||
        (e.nmi && decide (b = 2)) || (e.emuReq && decide (b = 0))) && !(e.trst && decide (b = 0))) := by
  show (latchTrst e.trst (latchWhen e.emuReq (0 : Fin 16).val (latchWhen e.nmi (2 : Fin 16).val
    (latchWhen e.timerZero (6 : Fin 16).val (latchHwError e.hwError s))))).ilat.getLsbD b.val = _
  rw [latchTrst_ilat_getLsbD, latchWhen_ilat_getLsbD, latchWhen_ilat_getLsbD, latchWhen_ilat_getLsbD,
    latchHwError_ilat_getLsbD]

/-- Of the core's inputs the hardware error alone writes SEQSTAT (60_exceptions.md R411). -/
theorem latchCore_seqstat (e : EnvInput) (s : State) :
    (latchCore e s).seqstat = (latchHwError e.hwError s).seqstat := by
  simp [latchCore]

/-- A write of HWERRCAUSE keeps the fields of SEQSTAT below it (10_state.md R31). -/
theorem State.setHwErrCause_low (s : State) (c : BitVec 5) :
    (s.setHwErrCause c).seqstat.extractLsb' 0 14 = s.seqstat.extractLsb' 0 14 :=
  BitVec.extractLsb'_append_eq_right

/-- Settles O27: each clause is the bit of `latchCore_ilat_getLsbD` or the field of HWERRCAUSE. -/
theorem coreInputsAreLatched : Obligations.CoreInputsAreLatched := by
  intro e s
  dsimp only
  have hilat := latchCore_ilat_getLsbD e s
  rw [latchCore_seqstat]
  refine ⟨?timer, ?hwError, ?nmi, ?emulation, fun b h0 h2 h5 h6 => ?others, ?cause, ?low, ?high⟩
  case timer => simpa using hilat 6
  case hwError => simpa using hilat 5
  case nmi => simpa using hilat 2
  case emulation => simpa using hilat 0
  case others => simpa [h0, h2, h5, h6] using hilat b
  case cause =>
    cases e.hwError with
    | none => rfl
    | some c =>
      obtain ⟨-, hcause, -⟩ := s.setHwErrCause_fields c.code
      cases c <;> exact hcause
  case low =>
    cases e.hwError with
    | none => rfl
    | some c => exact s.setHwErrCause_low c.code
  case high =>
    cases e.hwError with
    | none => rfl
    | some c => exact (s.setHwErrCause_fields c.code).1

/-! ## The requests of the system interrupt controller -/

/-- Bits set one at a time while a list is walked. -/
theorem foldl_or_bit_getLsbD {α : Type} {w : Nat} (p : α → Bool) (f : α → Nat) (l : List α) (r : BitVec w) (k : Nat) :
    (l.foldl (fun r n => if p n then r ||| (1#w <<< f n) else r) r).getLsbD k =
      (r.getLsbD k || l.any fun n => p n && decide (k = f n ∧ f n < w)) := by
  induction l generalizing r with
  | nil => simp
  | cons n l ih =>
    rw [List.foldl_cons, ih, List.any_cons, ← Bool.or_assoc]
    cases p n with
    | false => simp
    | true => simp only [if_true, BitVec.getLsbD_or, getLsbD_one_shiftLeft, Bool.true_and]

/-- An input is requested if a source asserted and unmasked is assigned to it (60_exceptions.md R332, R370). -/
theorem Sic.requests_getLsbD_iff (c : Sic) (k : Fin 9) : c.requests.getLsbD k.val = true ↔
    ∃ n : Fin 24, c.isr.getLsbD n.val = true ∧ c.imask.getLsbD n.val = true ∧ (c.field n.val).toNat = k.val := by
  have hbits := foldl_or_bit_getLsbD (w := 9) (fun n => c.isr.getLsbD n && c.imask.getLsbD n) (fun n => (c.field n).toNat)
    (List.range 24) 0#9 k.val
  rw [Sic.requests, hbits, BitVec.getLsbD_zero, Bool.false_or, List.any_eq_true]
  simp only [List.mem_range, Bool.and_eq_true, decide_eq_true_eq]
  constructor
  · rintro ⟨n, hn, ⟨hisr, himask⟩, hfield, -⟩
    exact ⟨⟨n, hn⟩, hisr, himask, hfield.symm⟩
  · rintro ⟨n, hisr, himask, hfield⟩
    exact ⟨n.val, n.isLt, ⟨hisr, himask⟩, hfield.symm, hfield ▸ k.isLt⟩

theorem ne_zero_iff_exists_getLsbD {w : Nat} (x : BitVec w) : x ≠ 0#w ↔ ∃ i : Fin w, x.getLsbD i.val = true := by
  constructor
  · intro h
    by_contra hnone
    refine h (BitVec.eq_of_getLsbD_eq fun i hi => ?_)
    rw [BitVec.getLsbD_zero, ← Bool.not_eq_true]
    exact fun hbit => hnone ⟨⟨i, hi⟩, hbit⟩
  · rintro ⟨i, hi⟩ rfl
    simp at hi

/-- A line enabled for wake-up is asserted (44_event_instructions.md R312). -/
theorem Sic.wakes_iff (c : Sic) :
    c.wakes = true ↔ ∃ n : Fin 24, c.isr.getLsbD n.val = true ∧ c.iwr.getLsbD n.val = true := by
  rw [Sic.wakes, decide_eq_true_eq, ne_zero_iff_exists_getLsbD]
  simp only [BitVec.getLsbD_extractLsb', BitVec.getLsbD_and, Nat.zero_add, Bool.and_eq_true, decide_eq_true_eq, Fin.is_lt,
    true_and]

/-- An unmasked source has a field Table 4-8 does not define (60_exceptions.md R370; log 22). -/
theorem Sic.badField_iff (c : Sic) :
    c.badField = true ↔ ∃ n : Fin 24, c.imask.getLsbD n.val = true ∧ 9 ≤ (c.field n.val).toNat := by
  simp only [Sic.badField, List.any_eq_true, List.mem_range, Bool.and_eq_true, decide_eq_true_eq]
  constructor
  · rintro ⟨n, hn, hmask, hfield⟩
    exact ⟨⟨n, hn⟩, hmask, hfield⟩
  · rintro ⟨n, hmask, hfield⟩
    exact ⟨n.val, n.isLt, hmask, hfield⟩

theorem prepare_of_badField {s : State} (hreset : s.nextInput.reset = false) (hfault : s.doubleFault = false)
    (hrequest : s.ilat.getLsbD 1 = false) (hfield : s.sic.badField = true) :
    prepare s = .error (.refused .iarField) := by
  simp only [prepare, hreset, hfault, hrequest, hfield, Bool.false_eq_true, if_false, if_true]

/-- Settles O28: SIC_ISR is the lines, and the requests, the wake-up and the check of the fields are searches through the
sources. -/
theorem sicFollowsLines : Obligations.SicFollowsLines := by
  refine ⟨fun c lines ipend early n => ?isr, Sic.requests_getLsbD_iff, Sic.wakes_iff,
    fun s hreset hfault hrequest hfield => ?refused⟩
  case isr =>
    rw [Sic.latched_isr, BitVec.getLsbD_setWidth, decide_eq_true n.isLt, Bool.true_and]
    split
    · rfl
    · next h => exact BitVec.getLsbD_of_ge lines n.val (not_lt.1 h)
  case refused =>
    exact step_of_prepare_error (prepare_of_badField hreset hfault hrequest ((Sic.badField_iff _).2 hfield))

/-! ## The pulses of the system interrupt controller -/

/-- An input pulses if it is requested, no pulse is outstanding, and its event is not active or the draw allows it
(60_exceptions.md R376). -/
theorem Sic.pulses_getLsbD (c : Sic) (ipend : BitVec 16) (early : BitVec 9) (k : Fin 9) :
    (c.pulses ipend early).getLsbD k.val =
      (c.requests.getLsbD k.val && !c.sent.getLsbD k.val && (!ipend.getLsbD (7 + k.val) || early.getLsbD k.val)) := by
  simp only [Sic.pulses, BitVec.getLsbD_and, BitVec.getLsbD_or, BitVec.getLsbD_not, BitVec.getLsbD_extractLsb',
    decide_eq_true k.isLt, Bool.true_and]

/-- The pulses stand in bits 15..7 of ILAT (60_exceptions.md R376). -/
theorem latchSic_ilat_getLsbD (e : EnvInput) (s : State) (b : Nat) :
    (latchSic e s).ilat.getLsbD b = (s.ilat.getLsbD b || (decide (7 ≤ b) &&
      (({ s.sic with isr := e.periph.setWidth 32 } : Sic).pulses s.ipend e.earlyPulse).getLsbD (b - 7))) := by
  show (s.ilat ||| (_ ++ 0#7)).getLsbD b = _
  rw [BitVec.getLsbD_or, BitVec.getLsbD_append]
  by_cases h : b < 7
  · rw [if_pos h, decide_eq_false (not_le.2 h), Bool.false_and, BitVec.getLsbD_zero]
  · rw [if_neg h, decide_eq_true (not_lt.1 h), Bool.true_and]

/-- Settles O29: a pulse is the bit of `Sic.pulses`, which both writes use. -/
theorem sicPulses : Obligations.SicPulses := by
  intro e s k
  dsimp only
  rw [← Sic.pulses_getLsbD]
  refine ⟨?sent, ?ilat, fun b => ?low⟩
  case sent => exact (BitVec.getLsbD_and ..).trans (congrArg _ (BitVec.getLsbD_or ..))
  case ilat => rw [latchSic_ilat_getLsbD, decide_eq_true (Nat.le_add_right 7 k.val), Bool.true_and, Nat.add_sub_cancel_left]
  case low => rw [latchSic_ilat_getLsbD, decide_eq_false (not_le.2 b.isLt), Bool.false_and, Bool.or_false]

end Sys2Proof.Machine

/-! # What an instruction in User mode reaches (60_exceptions.md R422, R424) -/

namespace Sys2Proof.Machine

/-! ## The protected resources are refused -/

/-- A protected instruction in User mode takes the exception 0x2E (60_exceptions.md R422). -/
theorem supervisorOnly_tookError {s : State} (huser : s.mode = .user) (o : Outcome) :
    ∃ t, supervisorOnly s o = .next t ∧ tookError 0x2E#6 s t :=
  ⟨_, if_pos huser, tookError_takeException (x := .illegalSupervisorResource) (State.inHandler_of_user huser) rfl s⟩

theorem checkRegister_of_user {r : Reg} {s : State} (huser : s.mode = .user) (hr : supervisorReg r = true) :
    checkRegister r s = .error (.exc .illegalSupervisorResource) :=
  if_pos ⟨huser, hr⟩

/-- A push, pop or move that ends in the check of its registers takes the exception 0x2E (40_stack_and_moves.md R160, R163,
R170). -/
theorem outcome_tookProtected {s : State} {r : Except Stop State} (huser : s.mode = .user)
    (hr : r = .error (.exc .illegalSupervisorResource)) : ∃ t, outcome s r = .next t ∧ tookError 0x2E#6 s t := by
  rw [hr]
  exact outcome_tookError (x := .illegalSupervisorResource) (State.inHandler_of_user huser) rfl

theorem runPush_of_protected {r : Reg} {s : State} (huser : s.mode = .user) (hr : supervisorReg r = true) :
    runPush r s = .error (.exc .illegalSupervisorResource) := by
  rw [runPush, checkRegister_of_user huser hr]
  rfl

theorem runPop_of_protected {r : Reg} {s : State} (huser : s.mode = .user) (hr : supervisorReg r = true)
    (hadm : (popAdmitted r && s.admitsWrite r) = true) : runPop r s = .error (.exc .illegalSupervisorResource) := by
  rw [runPop, if_pos hadm, checkRegister_of_user huser hr]
  rfl

theorem runMove_of_protected {dst src : Reg} {s : State} (huser : s.mode = .user)
    (hr : supervisorReg dst = true ∨ supervisorReg src = true)
    (hadm : (moveAdmitted dst src && s.admitsWrite dst) = true) :
    runMove dst src s = .error (.exc .illegalSupervisorResource) := by
  rw [runMove, if_pos hadm]
  by_cases hdst : supervisorReg dst = true
  · rw [checkRegister_of_user huser hdst]
    rfl
  · rw [show checkRegister dst s = .ok () from if_neg fun h => hdst h.2,
      checkRegister_of_user huser (hr.resolve_left hdst)]
    rfl

/-- Settles O21: the check of the mode comes before everything but that of the form. -/
theorem userModeIsRefusedSupervisorResources : Obligations.UserModeIsRefusedSupervisorResources := by
  intro s huser
  refine ⟨fun i hi => ?instructions, fun r hr => ?registers⟩
  case instructions =>
    rcases hi with rfl | rfl | rfl | rfl | rfl | ⟨d, rfl⟩ | ⟨d, rfl⟩ | ⟨n, rfl⟩ <;>
      exact supervisorOnly_tookError huser _
  case registers =>
    have hprotected : ∀ r ∈ ([.reti, .retx, .retn, .rete, .syscfg, .seqstat, .usp] : List Reg), supervisorReg r = true ∧
        r ≠ .cycles ∧ r ≠ .cycles2 ∧ (r ≠ .seqstat → popAdmitted r = true) := by decide
    obtain ⟨hsup, hcycles, hcycles2, hpop⟩ := hprotected r hr
    have hwrite := State.admitsWrite_of_ne (s := s) hcycles hcycles2
    refine ⟨outcome_tookProtected huser (runPush_of_protected huser hsup),
      fun hne => outcome_tookProtected huser (runPop_of_protected huser hsup (by rw [hpop hne, hwrite]; rfl)),
      fun g => ⟨outcome_tookProtected huser (runMove_of_protected huser (.inr hsup) ?source),
        fun hne => outcome_tookProtected huser (runMove_of_protected huser (.inl hsup) ?destination)⟩⟩
    case source =>
      rw [State.admitsWrite_of_ne (by simp) (by simp)]
      simp [moveAdmitted, isGeneral]
    case destination =>
      rw [hwrite]
      simp [moveAdmitted, isGeneral, hne]

/-! ## The fields an instruction that stays in User mode leaves alone -/

/-- The state with the Supervisor resources of another, its wait state and double-fault signal, its platform and its inputs to
come. -/
def State.withProtectedOf (s o : State) : State :=
  { s.withSupervisorOf o with idle := o.idle, doubleFault := o.doubleFault, plat := o.plat, env := o.env }

/-- The protected fields one by one. -/
theorem State.protected_kept {s t : State} (h : t.withProtectedOf s = t) :
    t.ssp = s.ssp ∧ t.reti = s.reti ∧ t.retx = s.retx ∧ t.retn = s.retn ∧ t.rete = s.rete ∧ t.seqstat = s.seqstat ∧
      t.syscfg = s.syscfg ∧ t.imask = s.imask ∧ t.ilat = s.ilat ∧ t.ipend = s.ipend ∧ t.evt = s.evt ∧ t.sic = s.sic ∧
      t.idle = s.idle ∧ t.doubleFault = s.doubleFault ∧ t.plat = s.plat ∧ t.env = s.env := by
  rw [← h]
  exact ⟨rfl, rfl, rfl, rfl, rfl, rfl, rfl, rfl, rfl, rfl, rfl, rfl, rfl, rfl, rfl, rfl⟩

/-- Two states of User mode on the same platform. -/
structure UserPeers (s o : State) : Prop where
  user : s.mode = .user
  peer : o.mode = .user
  plat : o.plat = s.plat

theorem UserPeers.refl {s : State} (h : s.mode = .user) : UserPeers s s := ⟨h, h, rfl⟩

theorem UserPeers.congr {s t o : State} (h : UserPeers s o) (hmode : t.mode = s.mode) (hplat : t.plat = s.plat) :
    UserPeers t o :=
  ⟨hmode.trans h.user, h.peer, h.plat.trans hplat.symm⟩

theorem UserPeers.mode {s o : State} (h : UserPeers s o) : (s.withProtectedOf o).mode = .user :=
  (State.mode_congr (s := o) rfl).trans h.peer

/-! ## Registers -/

theorem UserPeers.sp {s o : State} (h : UserPeers s o) : (s.withProtectedOf o).sp = s.sp := by
  rw [State.sp, State.sp, if_pos h.mode, if_pos h.user]
  rfl

theorem UserPeers.preg {s o : State} (h : UserPeers s o) (r : PReg) : (s.withProtectedOf o).preg r = s.preg r := by
  cases r with
  | p n => rfl
  | sp => exact h.sp
  | fp => rfl

theorem UserPeers.greg {s o : State} (h : UserPeers s o) (r : GReg) : (s.withProtectedOf o).greg r = s.greg r := by
  cases r with
  | d r => rfl
  | p r => exact h.preg r

theorem setLoop_withProtectedOf (s o : State) (k : LoopIdx) (u : LoopUnit) :
    (s.withProtectedOf o).setLoop k u = (s.setLoop k u).withProtectedOf o := by
  cases k <;> rfl

theorem loop_withProtectedOf (s o : State) (k : LoopIdx) : (s.withProtectedOf o).loop k = s.loop k := by
  cases k <;> rfl

theorem UserPeers.setSp {s o : State} (h : UserPeers s o) (v : Word) :
    (s.withProtectedOf o).setSp v = (s.setSp v).withProtectedOf o := by
  rw [State.setSp, State.setSp, if_pos h.mode, if_pos h.user]
  rfl

theorem UserPeers.setGreg {s o : State} (h : UserPeers s o) (r : GReg) (v : Word) :
    (s.withProtectedOf o).setGreg r v = (s.setGreg r v).withProtectedOf o := by
  rcases r with i | n | _ | _
  case p.sp => exact h.setSp v
  all_goals rfl

/-- What a register reads that User mode may name (60_exceptions.md R422). -/
theorem UserPeers.reg {s o : State} (h : UserPeers s o) {r : Reg} (hr : supervisorReg r = false) :
    (s.withProtectedOf o).reg r = s.reg r := by
  cases r with
  | g r => exact h.greg r
  | lc k | lt k | lb k => cases k <;> rfl
  | astat | rets | cycles | cycles2 => rfl
  | usp | seqstat | syscfg | reti | retx | retn | rete => cases hr

theorem UserPeers.setReg {s o : State} (h : UserPeers s o) {r : Reg} (hr : supervisorReg r = false) (v : Word) :
    (s.withProtectedOf o).setReg r v = (s.setReg r v).withProtectedOf o := by
  cases r with
  | g r => exact h.setGreg r v
  | lc k | lt k | lb k => cases k <;> rfl
  | astat | rets | cycles | cycles2 => rfl
  | usp | seqstat | syscfg | reti | retx | retn | rete => cases hr

theorem afterRead_withProtectedOf (s o : State) (r : Reg) :
    (s.withProtectedOf o).afterRead r = (s.afterRead r).withProtectedOf o := by
  cases r <;> rfl

theorem afterPushRead_withProtectedOf (s o : State) (r : Reg) :
    afterPushRead r (s.withProtectedOf o) = (afterPushRead r s).withProtectedOf o := by
  rw [afterPushRead, afterPushRead, afterRead_withProtectedOf, apply_ite (State.withProtectedOf · o)]
  rfl

/-! ## The end of an instruction -/

theorem expire_withProtectedOf (s o : State) (k : LoopIdx) :
    (s.withProtectedOf o).expire k = (s.expire k).withProtectedOf o := by
  simp only [State.expire, loop_withProtectedOf, setLoop_withProtectedOf, apply_ite (State.withProtectedOf · o)]
  rfl

/-- The next address and the loop units read and write none of the protected fields (43_loops.md R256). -/
theorem advance_withProtectedOf (len : Word) (s o : State) :
    advance len (s.withProtectedOf o) = (advance len s).withProtectedOf o := by
  have hback (u : State) (k : LoopIdx) : (u.withProtectedOf o).loopBack k = (u.loopBack k).withProtectedOf o := by
    cases k <;> rfl
  have hbacks (u : State) (k : LoopIdx) : (u.withProtectedOf o).loopsBack k = u.loopsBack k := by
    cases k <;> rfl
  simp only [advance, expire_withProtectedOf, hback, hbacks, apply_ite (State.withProtectedOf · o)]
  rfl

theorem advanceSeeing_withProtectedOf (len : Word) (k : LoopIdx) (seen : LoopUnit) (s o : State) :
    advanceSeeing len k seen (s.withProtectedOf o) = (advanceSeeing len k seen s).withProtectedOf o := by
  simp only [advanceSeeing, setLoop_withProtectedOf, advance_withProtectedOf, loop_withProtectedOf]

theorem UserPeers.advanceWritten {s o : State} (h : UserPeers s o) (len : Word) (k : LoopIdx) (u : State) :
    advanceWritten len k (s.withProtectedOf o) (u.withProtectedOf o) = (advanceWritten len k s u).withProtectedOf o := by
  have hclash : loopClash k (s.withProtectedOf o) (u.withProtectedOf o) = loopClash k s u := by cases k <;> rfl
  have hplat : (s.withProtectedOf o).plat.loopWriteSeen = s.plat.loopWriteSeen := congrArg Platform.loopWriteSeen h.plat
  unfold Machine.advanceWritten
  rw [hclash, hplat, loop_withProtectedOf]
  split
  · exact congrArg (·.setDraws (u.draws + 3)) (advanceSeeing_withProtectedOf len k u.freeUnit u o)
  · split
    · exact advanceSeeing_withProtectedOf len k (s.loop k) u o
    · exact advance_withProtectedOf len u o

theorem UserPeers.finishWrite {s o : State} (h : UserPeers s o) (r : Reg) (u : State) :
    finishWrite r (s.withProtectedOf o) (u.withProtectedOf o) = (finishWrite r s u).withProtectedOf o := by
  cases r with
  | lc k | lt k | lb k => exact h.advanceWritten 2 k u
  | _ => exact advance_withProtectedOf 2 u o

theorem atActiveEnd_withProtectedOf (s o : State) (k : LoopIdx) :
    (s.withProtectedOf o).atActiveEnd k = s.atActiveEnd k := by
  cases k <;> rfl

theorem decrementAtEnd_withProtectedOf (s o : State) (k : LoopIdx) :
    (s.withProtectedOf o).decrementAtEnd k = (s.decrementAtEnd k).withProtectedOf o := by
  simp only [State.decrementAtEnd, atActiveEnd_withProtectedOf, loop_withProtectedOf, setLoop_withProtectedOf,
    apply_ite (State.withProtectedOf · o)]

/-- Of the protected fields a taken transfer reads the platform alone, and it writes none (43_loops.md R259). -/
theorem UserPeers.takeTransfer {s t o : State} (h : UserPeers s o) {target target' : Word} (htarget : target' = target)
    (hnext : takeTransfer target s = .next t) :
    takeTransfer target' (s.withProtectedOf o) = .next (t.withProtectedOf o) := by
  have hplat : (s.withProtectedOf o).plat = s.plat := h.plat
  have hrefused : (s.withProtectedOf o).transferRefused = s.transferRefused := by
    simp only [State.transferRefused, hplat, atActiveEnd_withProtectedOf]
  have hloops : transferLoops (s.withProtectedOf o) = (transferLoops s).withProtectedOf o := by
    unfold transferLoops
    rw [hplat]
    split
    · rfl
    · rfl
    · rw [decrementAtEnd_withProtectedOf, decrementAtEnd_withProtectedOf]
  subst htarget
  rcases takeTransfer_cases target' s with ⟨_, e⟩ | ⟨hmeans, e⟩ <;> rw [e] at hnext <;> cases hnext
  rw [Machine.takeTransfer, hrefused, hmeans, if_neg Bool.false_ne_true, transfer, hloops]
  rfl

theorem UserPeers.branch {s t o : State} (h : UserPeers s o) {taken : Bool} {off : BitVec 10}
    (hnext : branch taken off s = .next t) : branch taken off (s.withProtectedOf o) = .next (t.withProtectedOf o) := by
  cases taken with
  | true => exact h.takeTransfer rfl hnext
  | false =>
    cases hnext
    exact congrArg Host.Outcome.next (advance_withProtectedOf 2 s o)

/-- An instruction that goes on to the next address after its writes. -/
theorem next_advance_withProtectedOf {len : Word} {u u' t o : State} (hu : u' = u.withProtectedOf o)
    (hnext : (.next (advance len u) : Outcome) = .next t) :
    (.next (advance len u') : Outcome) = .next (t.withProtectedOf o) := by
  cases hnext
  rw [hu, advance_withProtectedOf]

theorem UserPeers.moveIf {s t o : State} (h : UserPeers s o) {c : Bool} {dst src : GReg}
    (hnext : moveIf c dst src s = .next t) : moveIf c dst src (s.withProtectedOf o) = .next (t.withProtectedOf o) := by
  refine next_advance_withProtectedOf ?_ hnext
  rw [h.greg, h.setGreg, apply_ite (State.withProtectedOf · o)]

theorem UserPeers.execLsetup {s t o : State} (h : UserPeers s o) {k : LoopIdx} {soff : BitVec 4} {p : PReg} {eoff : BitVec 10}
    (hnext : execLsetup k soff p eoff s = .next t) :
    execLsetup k soff p eoff (s.withProtectedOf o) = .next (t.withProtectedOf o) := by
  obtain ⟨hadm, hmeans, rfl⟩ := execLsetup_next hnext
  have hsetup : loopSetup k soff p eoff (s.withProtectedOf o) = (loopSetup k soff p eoff s).withProtectedOf o := by
    unfold loopSetup
    rw [h.preg, setLoop_withProtectedOf]
    rfl
  have hrefused (u : State) : loopWriteRefused k (s.withProtectedOf o) (u.withProtectedOf o) = loopWriteRefused k s u := by
    have hplat : (s.withProtectedOf o).plat = s.plat := h.plat
    have hclash : loopClash k (s.withProtectedOf o) (u.withProtectedOf o) = loopClash k s u := by cases k <;> rfl
    rw [loopWriteRefused, hplat, hclash, loopWriteRefused]
  rw [Machine.execLsetup, if_pos hadm, hsetup, hrefused, hmeans, if_neg Bool.false_ne_true, h.advanceWritten]

/-! ## Data memory and the stack -/

/-- An access in User mode that answers reaches data memory (20_memory.md R95). -/
theorem accessTarget_user {a : Word} {s : State} {k : Option Mmr} (h : s.mode = .user) (hok : accessTarget a s = .ok k) :
    k = none := by
  rcases accessTarget_cases a s with ⟨_, e⟩ | ⟨_, _, _, e⟩ | ⟨_, _, _, hmode, _⟩ | ⟨_, _, e⟩ | ⟨_, _, e⟩ | ⟨_, _, e⟩
  case inr.inr.inl => exact absurd h hmode
  all_goals rw [e] at hok; cases hok
  rfl

theorem UserPeers.accessTarget {s o : State} (h : UserPeers s o) (a : Word) :
    accessTarget a (s.withProtectedOf o) = accessTarget a s :=
  accessTarget_congr a (h.mode.trans h.user.symm) h.plat

/-- Reads and stores in User mode do not reach the registers in memory (20_memory.md R95). -/
theorem UserPeers.memRead {s o : State} (h : UserPeers s o) (a : Word) : memRead a (s.withProtectedOf o) = memRead a s := by
  rw [Machine.memRead, Machine.memRead, h.accessTarget]
  cases htarget : Machine.accessTarget a s with
  | error e => rfl
  | ok k =>
    cases accessTarget_user h.user htarget
    rfl

theorem memWrite_user {a v : Word} {s t : State} (h : s.mode = .user) (hw : memWrite a v s = .ok t) :
    accessTarget a s = .ok none ∧ t = s.setDataWord a.toNat v := by
  rcases memWrite_cases hw with hdata | ⟨m, htarget, _⟩
  · exact hdata
  · cases accessTarget_user h htarget

theorem UserPeers.memWrite {a v : Word} {s t o : State} (h : UserPeers s o) (hw : memWrite a v s = .ok t) :
    memWrite a v (s.withProtectedOf o) = .ok (t.withProtectedOf o) := by
  obtain ⟨htarget, rfl⟩ := memWrite_user h.user hw
  rw [Machine.memWrite, h.accessTarget, htarget]
  rfl

/-- What a push step that answers did. -/
theorem pushWord_ok {v : Word} {s t : State} (h : pushWord v s = .ok t) :
    ∃ u, memWrite (s.sp - 4) v s = .ok u ∧ t = u.setSp (s.sp - 4) := by
  unfold pushWord at h
  cases hw : memWrite (s.sp - 4) v s with
  | error e => rw [hw] at h; cases h
  | ok u => rw [hw] at h; cases h; exact ⟨u, rfl, rfl⟩

theorem UserPeers.pushWord {v : Word} {s t o : State} (h : UserPeers s o) (hw : pushWord v s = .ok t) :
    pushWord v (s.withProtectedOf o) = .ok (t.withProtectedOf o) ∧ UserPeers t o := by
  obtain ⟨u, hstore, rfl⟩ := pushWord_ok hw
  obtain ⟨-, hu⟩ := memWrite_user h.user hstore
  have hpeers : UserPeers u o := by subst hu; exact h.congr rfl rfl
  refine ⟨?_, hpeers.congr (u.setSp_mode _) (u.setSp_plat _)⟩
  rw [Machine.pushWord, h.sp, h.memWrite hstore, Except.map, hpeers.setSp]

theorem UserPeers.popWord {v : Word} {s t o : State} (h : UserPeers s o) (hr : popWord s = .ok (v, t)) :
    popWord (s.withProtectedOf o) = .ok (v, t.withProtectedOf o) ∧ UserPeers t o := by
  have ht := popWord_state hr
  subst ht
  refine ⟨?_, h.congr (s.setSp_mode _) (s.setSp_plat _)⟩
  unfold Machine.popWord at hr ⊢
  rw [h.sp, h.memRead, h.setSp]
  cases hread : Machine.memRead s.sp s with
  | error e => rw [hread] at hr; cases hr
  | ok w => rw [hread] at hr; cases hr; rfl

theorem UserPeers.pushAll {rs : List GReg} {s t o : State} (h : UserPeers s o) (hall : pushAll rs s = .ok t) :
    pushAll rs (s.withProtectedOf o) = .ok (t.withProtectedOf o) := by
  induction rs generalizing s with
  | nil => cases hall; rfl
  | cons r rs ih =>
    unfold Machine.pushAll at hall ⊢
    cases hw : Machine.pushWord (s.greg r) s with
    | error e => rw [hw] at hall; cases hall
    | ok u =>
      rw [hw] at hall
      obtain ⟨hpushed, hpeers⟩ := h.pushWord hw
      rw [h.greg, hpushed]
      exact ih hpeers hall

theorem UserPeers.popAll {rs : List GReg} {s t o : State} (h : UserPeers s o) (hall : popAll rs s = .ok t) :
    popAll rs (s.withProtectedOf o) = .ok (t.withProtectedOf o) := by
  induction rs generalizing s with
  | nil => cases hall; rfl
  | cons r rs ih =>
    unfold Machine.popAll at hall ⊢
    cases hw : Machine.popWord s with
    | error e => rw [hw] at hall; cases hall
    | ok vu =>
      obtain ⟨v, u⟩ := vu
      rw [hw] at hall
      obtain ⟨hpopped, hpeers⟩ := h.popWord hw
      rw [hpopped]
      show Machine.popAll rs ((u.withProtectedOf o).setGreg r v) = _
      rw [hpeers.setGreg]
      exact ih (hpeers.congr (u.setGreg_mode r v) (u.setGreg_plat r v)) hall

/-! ## The stack statements and moves -/

theorem UserPeers.admitsWrite {s o : State} (h : UserPeers s o) (r : Reg) :
    (s.withProtectedOf o).admitsWrite r = s.admitsWrite r := by
  have hplat : (s.withProtectedOf o).plat = s.plat := h.plat
  rw [State.admitsWrite, State.admitsWrite, hplat]

theorem UserPeers.writeHasMeaning {s o : State} (h : UserPeers s o) {r : Reg} {v : Word} (hw : s.writeHasMeaning r v) :
    (s.withProtectedOf o).writeHasMeaning r v := by
  intro hrefuse k hk
  have hplat : (s.withProtectedOf o).plat = s.plat := h.plat
  rw [loop_withProtectedOf]
  exact hw (hplat ▸ hrefuse) k hk

/-- A register that passed the check in User mode is none of the Supervisor's (60_exceptions.md R422). -/
theorem not_supervisorReg {s : State} {r : Reg} (huser : s.mode = .user) (h : ¬ (s.mode = .user ∧ supervisorReg r = true)) :
    supervisorReg r = false := by
  simpa [huser] using h

theorem UserPeers.runPush {r : Reg} {s t o : State} (h : UserPeers s o) (hok : runPush r s = .ok t) :
    runPush r (s.withProtectedOf o) = .ok (t.withProtectedOf o) := by
  have hsup : supervisorReg r = false := by
    by_contra hsup
    rw [runPush_of_protected h.user (by simpa using hsup)] at hok
    cases hok
  have hreti : r ≠ .reti := by rintro rfl; cases hsup
  obtain ⟨u, hpush, rfl⟩ := runPush_ok hok
  obtain ⟨hmode, -, -, hplat, -⟩ := afterPushRead_keeps r s
  obtain ⟨hpushed, -⟩ := (h.congr hmode hplat).pushWord hpush
  have hvalue : pushValue r (s.withProtectedOf o) = pushValue r s := by
    unfold pushValue
    rw [h.reg hsup]
    rfl
  rw [Machine.runPush, show Machine.checkRegister r (s.withProtectedOf o) = .ok () from if_neg (by simp [hsup]), hvalue,
    afterPushRead_withProtectedOf, hpushed]
  show Except.ok (advance 2 (afterPush r (u.withProtectedOf o))) = _
  rw [afterPush, afterPush, if_neg hreti, if_neg hreti, advance_withProtectedOf]

theorem UserPeers.runPop {r : Reg} {s t o : State} (h : UserPeers s o) (hok : runPop r s = .ok t) :
    runPop r (s.withProtectedOf o) = .ok (t.withProtectedOf o) := by
  obtain ⟨hadm, hwrite, hr, v, hpop, hsyscfg, hmeans, rfl⟩ := runPop_ok hok
  have hsup := not_supervisorReg h.user hr
  have hreti : r ≠ .reti := by rintro rfl; cases hsup
  obtain ⟨hpopped, hpeers⟩ := h.popWord hpop
  rw [← h.setSp, ← h.sp] at hpopped
  rw [runPop_run hadm ((h.admitsWrite r).trans hwrite) (by simp [hsup]) hpopped hsyscfg (h.writeHasMeaning hmeans)]
  simp only [afterPop, if_neg hreti]
  rw [h.sp, h.setSp, hpeers.setReg hsup, h.finishWrite]

/-- A move that answers is of an admitted pair (40_stack_and_moves.md R170). -/
theorem runMove_admitted {dst src : Reg} {s t : State} (h : runMove dst src s = .ok t) :
    (moveAdmitted dst src && s.admitsWrite dst) = true := by
  unfold runMove at h
  split at h
  · assumption
  · cases h

theorem UserPeers.runMove {dst src : Reg} {s t o : State} (h : UserPeers s o) (hok : runMove dst src s = .ok t) :
    runMove dst src (s.withProtectedOf o) = .ok (t.withProtectedOf o) := by
  have hsyscfg := runMove_checkSyscfg hok
  obtain ⟨hadm, hwrite⟩ := Bool.and_eq_true_iff.1 (runMove_admitted hok)
  obtain ⟨hsrc, hdst, hmeans, rfl⟩ := runMove_ok hok
  have hread := h.reg (not_supervisorReg h.user hsrc)
  have hpeers : UserPeers (s.afterRead src) o := h.congr (s.afterRead_mode src) (s.afterRead_plat src)
  have hsup := not_supervisorReg h.user hdst
  rw [runMove_run hadm ((h.admitsWrite dst).trans hwrite) (by simp [not_supervisorReg h.user hsrc, hsup]) (by rwa [hread])
    (by rw [hread]; exact h.writeHasMeaning hmeans), hread, afterRead_withProtectedOf, hpeers.setReg hsup,
    h.finishWrite]

/-- The end of a multiple push or pop. -/
theorem map_advance_withProtectedOf {e e' : Except Stop State} {o t : State} (hok : e.map (advance 2) = .ok t)
    (he : ∀ u, e = .ok u → e' = .ok (u.withProtectedOf o)) : e'.map (advance 2) = .ok (t.withProtectedOf o) := by
  cases e with
  | error stop => cases hok
  | ok u =>
    cases hok
    rw [he u rfl, Except.map, advance_withProtectedOf]

theorem UserPeers.runPushMultiple {x : Option DReg} {y : Option (Fin 6)} {s t o : State} (h : UserPeers s o)
    (hok : runPushMultiple x y s = .ok t) : runPushMultiple x y (s.withProtectedOf o) = .ok (t.withProtectedOf o) := by
  unfold Machine.runPushMultiple at hok ⊢
  split at hok
  · next hregs => rw [if_pos hregs]; exact map_advance_withProtectedOf hok fun _ => h.pushAll
  · cases hok

theorem UserPeers.runPopMultiple {x : Option DReg} {y : Option (Fin 6)} {s t o : State} (h : UserPeers s o)
    (hok : runPopMultiple x y s = .ok t) : runPopMultiple x y (s.withProtectedOf o) = .ok (t.withProtectedOf o) := by
  unfold Machine.runPopMultiple at hok ⊢
  split at hok
  · next hregs => rw [if_pos hregs]; exact map_advance_withProtectedOf hok fun _ => h.popAll
  · cases hok

/-! ## An instruction -/

/-- Everything an instruction in User mode that answers a state can have done: entered the exception handler, from a state with
the protected fields of `s`; or something that the protected fields of every other state of User mode let it do alike. -/
inductive UserEffect (s : State) (i : Instr) : State → Prop where
  | enters {c : BitVec 6} {ret : Word} {d : State} (hd : d.withProtectedOf s = d) :
      UserEffect s i (takeEvent 3 ret (d.setExcause c))
  | confined {t : State} (h : ∀ o, UserPeers s o → exec i (s.withProtectedOf o) = .next (t.withProtectedOf o)) :
      UserEffect s i t

/-- An exception in User mode is the entry of event 3 from the state before or after the instruction (60_exceptions.md R392,
R422). -/
theorem UserEffect.of_takeException {s done : State} {i : Instr} (huser : s.mode = .user) (x : Exc)
    (hdone : done.withProtectedOf s = done) : UserEffect s i (takeException x s done) := by
  have hout := State.inHandler_of_user huser
  cases hx : x.service with
  | true => rw [takeException_of_service hout hx]; exact .enters hdone
  | false => rw [takeException_of_error hout hx]; exact .enters rfl

theorem UserEffect.of_supervisorOnly {s t : State} {i : Instr} {o : Outcome} (huser : s.mode = .user)
    (h : supervisorOnly s o = .next t) : UserEffect s i t := by
  rw [supervisorOnly, if_pos huser] at h
  cases h
  exact .of_takeException huser _ rfl

/-- A stack statement or a move whose result the protected fields do not change. -/
theorem UserEffect.of_outcome {s t : State} {i : Instr} {f : State → Except Stop State} (huser : s.mode = .user)
    (h : outcome s (f s) = .next t) (hexec : ∀ u, exec i u = outcome u (f u))
    (hf : ∀ {o u}, UserPeers s o → f s = .ok u → f (s.withProtectedOf o) = .ok (u.withProtectedOf o)) :
    UserEffect s i t := by
  rcases outcome_cases h with hok | ⟨x, -, rfl⟩
  · refine .confined fun o ho => ?_
    rw [hexec, hf ho hok]
    rfl
  · exact .of_takeException huser x rfl

/-- What an instruction in User mode that answers a state did, by the kinds of instructions. -/
theorem exec_userEffect {i : Instr} {s t : State} (huser : s.mode = .user) (h : exec i s = .next t) : UserEffect s i t := by
  cases i with
  | rti | rtx | rtn | rte | idle | cli | sti | raise => exact .of_supervisorOnly huser h
  | excpt m =>
    cases h
    exact .of_takeException huser _ (advance_withProtectedOf 2 s s).symm
  | rts | jumpS | jumpL => exact .confined fun o ho => ho.takeTransfer rfl h
  | jumpP p => exact .confined fun o ho => ho.takeTransfer (ho.preg p) h
  | jumpPcP p => exact .confined fun o ho => ho.takeTransfer (congrArg (s.pc + ·) (ho.preg p)) h
  | call off => exact .confined fun o ho => (ho.congr (t := s.setRets (s.pc + 4)) rfl rfl).takeTransfer rfl h
  | callP p => exact .confined fun o ho => (ho.congr (t := s.setRets (s.pc + 2)) rfl rfl).takeTransfer (ho.preg p) h
  | callPcP p =>
    exact .confined fun o ho =>
      (ho.congr (t := s.setRets (s.pc + 2)) rfl rfl).takeTransfer (congrArg (s.pc + ·) (ho.preg p)) h
  | ifCcJump | ifNotCcJump => exact .confined fun o ho => ho.branch h
  | lsetup => exact .confined fun o ho => ho.execLsetup h
  | push r => exact .of_outcome huser h (fun _ => rfl) UserPeers.runPush
  | pop r => exact .of_outcome huser h (fun _ => rfl) UserPeers.runPop
  | pushMultiple x y => exact .of_outcome huser h (fun _ => rfl) UserPeers.runPushMultiple
  | popMultiple x y => exact .of_outcome huser h (fun _ => rfl) UserPeers.runPopMultiple
  | regMove dst src => exact .of_outcome huser h (fun _ => rfl) UserPeers.runMove
  | ifCcMove | ifNotCcMove => exact .confined fun o ho => ho.moveIf h
  | ccEqD | ccEqDImm | ccLtD | ccLtDImm | ccLeD | ccLeDImm | ccLtuD | ccLtuDImm | ccLeuD | ccLeuDImm =>
    exact .confined fun o _ => next_advance_withProtectedOf rfl h
  | ccEqP | ccEqPImm | ccLtP | ccLtPImm | ccLeP | ccLePImm | ccLtuP | ccLtuPImm | ccLeuP | ccLeuPImm =>
    exact .confined fun o ho => next_advance_withProtectedOf (by simp only [ho.preg]; rfl) h

/-! ## The statements -/

/-- What the protected fields of every state of User mode let an instruction do alike left those of `s` as they were. -/
theorem protected_kept_of_confined {i : Instr} {s t : State} (huser : s.mode = .user) (h : exec i s = .next t)
    (hconf : ∀ o, UserPeers s o → exec i (s.withProtectedOf o) = .next (t.withProtectedOf o)) : t.withProtectedOf s = t :=
  Host.Outcome.next.inj ((hconf s (.refl huser)).symm.trans h)

/-- The handler an instruction in User mode enters runs in Supervisor mode (60_exceptions.md R424). -/
theorem enters_mode {s d : State} (huser : s.mode = .user) (hd : d.withProtectedOf s = d) {ret : Word} {c : BitVec 6} :
    (takeEvent 3 ret (d.setExcause c)).mode = .supervisor := by
  have hclear : d.ipend.getLsbD 0 = false := by
    rw [← hd]
    exact ((s.mode_user_iff).1 huser).1
  exact takeEvent_three_mode hclear ret

/-- Settles O10: an instruction enters the handler from a state with the protected fields, or keeps them. -/
theorem userModeIsConfined : Obligations.UserModeIsConfined := by
  intro i s t huser h
  cases exec_userEffect huser h with
  | confined hconf =>
    obtain ⟨hssp, hreti, hretx, hretn, hrete, hseqstat, hsyscfg, himask, hilat, hipend, hevt, hsic, hidle, hfault, hplat,
      henv⟩ := State.protected_kept (protected_kept_of_confined huser h hconf)
    exact ⟨hssp, hreti, hretn, hrete, hsyscfg, himask, hevt, hsic, hfault, hplat, henv,
      .inl ⟨(State.mode_congr hipend).trans huser, hipend, hilat, hseqstat, hretx, hidle⟩⟩
  | @enters c ret d hd =>
    have hkept := State.protected_kept hd
    have hfield : (d.setExcause c).seqstat.extractLsb' 6 26 = s.seqstat.extractLsb' 6 26 := by
      rw [d.setExcause_field c le_rfl (by decide)]
      simp only [hkept]
    refine ⟨?_, ?_, ?_, ?_, ?_, ?_, ?_, ?_, ?_, ?_, ?_, .inr ⟨enters_mode huser hd, ?_, ?_, ?_, ?field⟩⟩
    case field => rwa [takeEvent_seqstat]
    all_goals simp [takeEvent_three, hkept]

/-- Settles O11: with the resources of another state of User mode as the protected fields the instruction does the same. -/
theorem userModeLearnsNothing : Obligations.UserModeLearnsNothing := by
  intro i s t o huser hother h hstays
  cases exec_userEffect huser h with
  | enters hd => exact absurd ((enters_mode huser hd).symm.trans hstays) (by decide)
  | confined hconf =>
    have hpeers : UserPeers s (s.withSupervisorOf o) :=
      ⟨huser, (State.mode_congr (s := o) rfl).trans hother, rfl⟩
    have hsame : t.withProtectedOf (s.withSupervisorOf o) = t.withSupervisorOf o := by
      rw [← protected_kept_of_confined huser h hconf]
      rfl
    exact (hconf _ hpeers).trans (congrArg Host.Outcome.next hsame)

end Sys2Proof.Machine

/-! # Reset (70_reset_and_hazards.md) -/

namespace Sys2Proof.Machine

/-! ## The fields of the state a reset leaves (70_reset_and_hazards.md R440) -/

@[simp] theorem resetState_pc (lines : BitVec 24) (s : State) : (resetState lines s).pc = resetVector s.plat.bmode := rfl
@[simp] theorem resetState_ipend (lines : BitVec 24) (s : State) : (resetState lines s).ipend = 0x0012#16 := rfl
@[simp] theorem resetState_imask (lines : BitVec 24) (s : State) : (resetState lines s).imask = 0x001F#16 := rfl
@[simp] theorem resetState_ilat (lines : BitVec 24) (s : State) : (resetState lines s).ilat = 0 := rfl
@[simp] theorem resetState_seqstat (lines : BitVec 24) (s : State) : (resetState lines s).seqstat = 0 := rfl
@[simp] theorem resetState_syscfg (lines : BitVec 24) (s : State) : (resetState lines s).syscfg = 0x30#32 := rfl
@[simp] theorem resetState_sic (lines : BitVec 24) (s : State) :
    (resetState lines s).sic =
      { imask := 0, iwr := 0xFFFFFFFF#32, isr := lines.setWidth 32, iar0 := 0x10000000#32, iar1 := 0x33322221#32,
        iar2 := 0x66655444#32, sent := 0 } := rfl
@[simp] theorem resetState_idle (lines : BitVec 24) (s : State) : (resetState lines s).idle = false := rfl
@[simp] theorem resetState_doubleFault (lines : BitVec 24) (s : State) : (resetState lines s).doubleFault = false := rfl

/-- IPEND[1] is set and IPEND[0] clear after a reset (60_exceptions.md R420). -/
@[simp] theorem resetState_mode (lines : BitVec 24) (s : State) : (resetState lines s).mode = .supervisor :=
  State.mode_supervisor (by rw [resetState_ipend]; decide) (by rw [resetState_ipend]; decide)

/-- A reset consults no event vector (70_reset_and_hazards.md R441; 10_state.md R38). -/
@[simp] theorem resetState_setEvt (lines : BitVec 24) (s : State) (n : Fin 16) (v : Word) :
    resetState lines (s.setEvt n v) = resetState lines s := rfl

/-! ## The step with RESET asserted -/

/-- RESET is the first check of a step (70_reset_and_hazards.md R442). -/
theorem prepare_of_reset {s : State} (h : s.nextInput.reset = true) :
    prepare s = .error (.next (resetState s.nextInput.periph (s.setEnv s.env.tail))) := by
  simp only [prepare, h, if_true]

theorem step_of_reset {s : State} (h : s.nextInput.reset = true) :
    step s = .next (resetState s.nextInput.periph (s.setEnv s.env.tail)) :=
  step_of_prepare_error (prepare_of_reset h)

/-! ## The statements -/

/-- Settles O7, from the parts of the invariant. -/
theorem resetHasInvariant : Obligations.ResetHasInvariant :=
  State.reset.inv_iff_parts.2 .reset

/-- Settles O15: the step leaves `resetState`, read field by field. -/
theorem resetOverridesEverything : Obligations.ResetOverridesEverything := by
  intro s hreset
  refine ⟨_, step_of_reset hreset, ?pc, resetState_ipend _ _, resetState_imask _ _, resetState_ilat _ _,
    resetState_seqstat _ _, resetState_syscfg _ _, ?sicImask, ?sicIwr, ?sicIsr, ?sicIar0, ?sicIar1, ?sicIar2, ?sicSent,
    resetState_idle _ _, resetState_doubleFault _ _, resetState_mode _ _⟩
  case pc => rw [resetState_pc, State.setEnv_plat]; rfl
  all_goals rw [resetState_sic]

/-- Settles O16: the pc is `resetVector`, and the reset state is the same whatever EVT1 held. -/
theorem resetVectorIsFixed : Obligations.ResetVectorIsFixed := by
  intro lines s
  constructor
  · rw [resetState_pc]; rfl
  · intro v
    rw [resetState_setEvt]

end Sys2Proof.Machine

/-! # The reset RAISE 1 requests (44_event_instructions.md R282) -/

namespace Sys2Proof.Machine

theorem requestedReset_of_coreReset {s : State} (h : s.plat.softReset = .coreReset) (lines : BitVec 24) :
    requestedReset lines s = .next (resetState lines s) := by
  simp only [requestedReset, h]

theorem requestedReset_of_refuse {s : State} (h : s.plat.softReset = .refuse) (lines : BitVec 24) :
    requestedReset lines s = .refused .softReset := by
  simp only [requestedReset, h]

/-- A latched reset request ends the step once RESET and the double fault are ruled out (log 10, log 29). -/
theorem prepare_of_resetRequest {s : State} (hreset : s.nextInput.reset = false) (hfault : s.doubleFault = false)
    (hrequest : s.ilat.getLsbD 1 = true) :
    prepare s = .error (requestedReset s.nextInput.periph (s.setEnv s.env.tail)) := by
  simp only [prepare, hreset, hfault, hrequest, Bool.false_eq_true, if_false, if_true]

theorem step_of_resetRequest {s : State} (hreset : s.nextInput.reset = false) (hfault : s.doubleFault = false)
    (hrequest : s.ilat.getLsbD 1 = true) :
    step s = requestedReset s.nextInput.periph (s.setEnv s.env.tail) :=
  step_of_prepare_error (prepare_of_resetRequest hreset hfault hrequest)

/-- Settles O17: the step is `requestedReset`, which SOFT_RESET decides; the reset state is read field by field. -/
theorem requestedResetIsTaken : Obligations.RequestedResetIsTaken := by
  intro s hreset hfault hrequest
  rw [step_of_resetRequest hreset hfault hrequest]
  constructor
  · intro hcore
    refine ⟨_, requestedReset_of_coreReset (by rwa [State.setEnv_plat]) _, ?pc, resetState_ipend _ _,
      resetState_imask _ _, resetState_ilat _ _, resetState_seqstat _ _, resetState_syscfg _ _, resetState_mode _ _⟩
    case pc => rw [resetState_pc, State.setEnv_plat]; rfl
  · intro hrefuse
    exact requestedReset_of_refuse (by rwa [State.setEnv_plat]) _

end Sys2Proof.Machine
